-- ==== Sys2Proof/Word.lean ====
section
/-!
DEFINITION. The words of the block (00_scope.md rules R10 to R12; 30_encoding.md rule R100).
-/

namespace Sys2Proof

/-- A `u8`: a bus byte, a register address inside a target, an opcode. -/
abbrev Byte := BitVec 8

/-- A `u16`: a control register, a counter, a raw measurement. -/
abbrev Half := BitVec 16

/-- An `s32`: a result register, a response value (rule R10: 32 bits, two's complement). -/
abbrev Word := BitVec 32

/-- One 40-bit command frame; byte 0 is bits 39..32 (30_encoding.md rule R100). -/
abbrev Frame := BitVec 40

/-- The carrier of `Distance`, the result type of the open parameter `PROX_CONVERT` (00_scope.md rule R9).
DESIGN CHOICE, safe: the spec leaves the type open; an integer can stand for any of the at most 65536 values a function of
a `u16` has (log entry 5). -/
abbrev Distance := Int

end Sys2Proof
end

