-- ==== Sys2Proof/Syntax.lean ====
section
/-!
DEFINITION. The 24 commands (30_encoding.md rules R101, R102, R110), their operands, and the inputs that the environment
presents to the block (10_state.md rules R43, R47, R62; 60_exceptions.md rule R373).
-/

namespace Sys2Proof

/-- The four device slots (10_state.md rule R20). -/
inductive Slot
  | adc
  | pxa
  | usr
  | pwm
  deriving DecidableEq, Repr, Inhabited

/-- The three slots with a timer and a result register, d in 0..2 (10_state.md rule R20; 47_poll.md rule R311). -/
inductive Sensor
  | adc
  | pxa
  | usr
  deriving DecidableEq, Repr, Inhabited

/-- What the PXA measures: `AMB` (k = 0) or `PROX` (k = 1) (42_codec_pxa.md rule R161). -/
inductive Kind
  | amb
  | prox
  deriving DecidableEq, Repr, Inhabited

/-- The commands, one constructor per row of 30_encoding.md rule R110. An operand the rule counts with is a number (a
channel, a tick count, hertz, milliseconds), one it takes as bits is a bit vector, a one-bit switch is a `Bool`. The widths of
the fields are checked by `Instr.WellFormed`. -/
inductive Instr
  | cfgw (reg : Byte) (val : Half)
  | cfgr (reg : Byte)
  | start (slot : Slot) (interval : Nat)
  | stop (slot : Slot)
  | adtrig (b : Nat)
  | adread
  | admeas (b : Nat)
  | pxtrig (k : Kind)
  | pxrdy (k : Kind)
  | pxread (k : Kind)
  | pxmeas (k : Kind)
  | pxled (units : Nat)
  | ustrig
  | usread
  | usmeas
  | crcv (data : Half) (crc : Byte) (quirk : Bool) (strict : Bool)
  | setfreq (hz : Nat)
  | setpwm (ch : Nat) (on : Nat) (off : Nat)
  | fullon (ch : Nat)
  | fulloff (ch : Nat)
  | setduty (ch : Nat) (pct : Int)
  | sleep
  | wake
  | restart
  deriving DecidableEq, Repr

/-- The answer of the bus to the one transaction of a micro-step (20_memory.md rule R62). A write returns no bytes. -/
inductive BusAnswer
  | ok (rbytes : List Byte)
  | fail
  deriving DecidableEq, Repr, Inhabited

/-- One input, handled in one atomic step (60_exceptions.md rules R373, R374). `micro d ans` schedules slot `d`'s sequencer
for one micro-step and carries the answer the bus gives should that micro-step issue a transaction (20_memory.md rule R62:
"a free input of the micro-step, under no law"). -/
inductive Input
  | cmd (f : Frame)
  | tick (d : Sensor)
  | micro (d : Slot) (ans : BusAnswer)
  | reset
  deriving DecidableEq, Repr, Inhabited

end Sys2Proof
end

