-- ==== Sys2Proof/Config.lean ====
section
/-!
DEFINITION. What an implementation fixes and the spec leaves open (00_scope.md rule R9), as one opaque record, and the free
order of the environment's inputs (60_exceptions.md rule R374). Nothing in Lean can evaluate an opaque constant, so a theorem
about the machine holds whatever the parameters and the schedule are.
-/

namespace Sys2Proof

/-- The parameters of 00_scope.md rule R9. `ADC_NCHAN` (1..8) is held as the greatest supported channel index, so that
every value of the field is legal. -/
structure Params where
  /-- `SLAVE[d]`, the 7-bit slave address of slot d. -/
  slave : Slot → BitVec 7
  /-- `BUS_NAME`, the name of the one bus, whose type rule R9 calls opaque. DESIGN CHOICE, safe (log entry 4): its carrier is `String`;
  no step reads it. -/
  busName : String
  /-- `ADC_NCHAN - 1`. -/
  adcLastCh : Fin 8
  /-- `ADC_CFG_PTR`, the "1 cmd" byte of the ADC trigger. -/
  adcCfgPtr : Byte
  /-- `ADC_MUX[ch]`. -/
  adcMux : Nat → Half
  /-- `ADC_PGA`. -/
  adcPga : Half
  /-- `ADC_RATE`. -/
  adcRate : Half
  /-- `ADC_MODE`. -/
  adcMode : Half
  /-- `ADC_CONV_DELAY_MS`. -/
  adcConvDelayMs : Half
  /-- `MODE1_SLEEP`, the sleep bit of MODE1, as a mask. -/
  mode1Sleep : Byte
  /-- `MODE1_RESTART`, the restart bit of MODE1, as a mask. -/
  mode1Restart : Byte
  /-- `PROX_CONVERT`. -/
  proxConvert : Half → Distance
  /-- `POLL_MAX_RESET`. -/
  pollMaxReset : Half
  /-- `POLL_GAP_RESET`. -/
  pollGapReset : Half
  deriving Inhabited

/-- `ADC_NCHAN`: the supported channel indices are 0..ADC_NCHAN-1 (00_scope.md rule R9). -/
def Params.adcNchan (p : Params) : Nat := p.adcLastCh.val + 1

/-- The constraint of 00_scope.md rule R9 on the masks: "`MODE1_SLEEP AND MODE1_RESTART = 0` and each is non-zero". -/
def Params.masksLegal (p : Params) : Bool :=
  p.mode1Sleep != 0 && p.mode1Restart != 0 && p.mode1Sleep &&& p.mode1Restart == 0

/-- `p` itself where its masks meet the constraint of rule R9; otherwise `p` with one pair of masks that does (which pair
does not matter: it only keeps an illegal record from being a configuration, and every legal record is kept as it is).
DESIGN CHOICE, safe (log entry 4). -/
def Params.legal (p : Params) : Params :=
  { p with
    mode1Sleep := if p.masksLegal then p.mode1Sleep else 0x01#8
    mode1Restart := if p.masksLegal then p.mode1Restart else 0x02#8 }

/-- FREE: what the implementation fixes, with no stated value (00_scope.md rule R9; log entry 4). -/
opaque Config.given : Params

/-- The parameters of this block: open, but for the constraint of rule R9. -/
def Config.params : Params := Config.given.legal

/-- FREE: the input that the environment presents as its `n`-th one once State lists none (60_exceptions.md rule R374: every
order is allowed; 20_memory.md rule R62: every answer is allowed; log entry 1). -/
opaque Config.schedule : Nat → Input

end Sys2Proof
end

