-- ==== Sys2Proof/WellFormed.lean ====
section
/-!
DEFINITION. Which commands a frame can hold: each operand in the range its field holds (30_encoding.md rule R102, column
"range the field can hold"). An operand that fits its field and lies outside its legal range is well formed: the command is
answered `RANGE_ERROR`, `ABSENT` or `IGNORED`, as its rule says.
-/

namespace Sys2Proof

/-- `v` fits an unsigned field of `n` bits (00_scope.md rule R12). -/
def fitsUnsigned (n v : Nat) : Bool := decide (v < 2 ^ n)

/-- `v` fits the two's complement field of 16 bits that holds `pct` (30_encoding.md rule R102). -/
def fitsPercent (v : Int) : Bool := decide (-32768 ≤ v) && decide (v ≤ 32767)

/-- Every operand lies in the range its field can hold (30_encoding.md rule R102). -/
def Instr.WellFormed : Instr → Bool
  | .cfgw _ _ => true
  | .cfgr _ => true
  | .start _ interval => fitsUnsigned 16 interval
  | .stop _ => true
  | .adtrig b => fitsUnsigned 8 b
  | .adread => true
  | .admeas b => fitsUnsigned 8 b
  | .pxtrig _ => true
  | .pxrdy _ => true
  | .pxread _ => true
  | .pxmeas _ => true
  | .pxled units => fitsUnsigned 16 units
  | .ustrig => true
  | .usread => true
  | .usmeas => true
  | .crcv _ _ _ _ => true
  | .setfreq hz => fitsUnsigned 16 hz
  | .setpwm ch on off => fitsUnsigned 4 ch && fitsUnsigned 13 on && fitsUnsigned 13 off
  | .fullon ch => fitsUnsigned 4 ch
  | .fulloff ch => fitsUnsigned 4 ch
  | .setduty ch pct => fitsUnsigned 4 ch && fitsPercent pct
  | .sleep => true
  | .wake => true
  | .restart => true

end Sys2Proof
end

