-- ==== Sys2Proof/Decode.lean ====
section
/-!
DEFINITION. Decoding and encoding of command frames (30_encoding.md rules R100 to R102, R110, R111; 47_poll.md rule R314
step 1). Decoding is total on 40-bit frames, and on byte lists: what is no command is rejected by name.
-/

namespace Sys2Proof

/-! ### Codes of the named operands (30_encoding.md rule R102) -/

/-- The slot of a 2-bit slot field: 0 ADC, 1 PXA, 2 USR, 3 PWM (10_state.md rule R20). -/
def slotOfBits (b : BitVec 2) : Slot :=
  if b = 0#2 then .adc else if b = 1#2 then .pxa else if b = 2#2 then .usr else .pwm

/-- The slot number as 2 bits (10_state.md rule R20). -/
def Slot.bits : Slot → BitVec 2
  | .adc => 0#2
  | .pxa => 1#2
  | .usr => 2#2
  | .pwm => 3#2

/-- The kind of a 1-bit `k` field: 0 = AMB, 1 = PROX (30_encoding.md rule R102). -/
def kindOfBit (b : Bool) : Kind := if b then .prox else .amb

/-- `k` as one bit (30_encoding.md rule R102). -/
def Kind.bit : Kind → BitVec 1
  | .amb => 0#1
  | .prox => 1#1

/-! ### Fields of a frame (30_encoding.md rules R100, R101) -/

/-- Byte 0 of the frame, `f[39:32]` (rule R100). -/
def opcodeOf (f : Frame) : Byte := f.extractLsb' 32 8

/-- `w[7:0]`: `b` of format B, `crc` of format V. -/
def lowByteOf (f : Frame) : Byte := f.extractLsb' 0 8

/-- `w[15:0]`: `imm` of formats H and S, `pct` of format P, `val` of format R. -/
def lowHalfOf (f : Frame) : Half := f.extractLsb' 0 16

/-- `w[23:16]`: `reg` of format R. -/
def regOf (f : Frame) : Byte := f.extractLsb' 16 8

/-- `w[23:8]`: `data` of format V. -/
def dataOf (f : Frame) : Half := f.extractLsb' 8 16

/-- `w[31:28]`: `ch` of formats C, T and P. -/
def channelOf (f : Frame) : Nat := (f.extractLsb' 28 4).toNat

/-- `w[25:13]`: `on` of format T. -/
def onOf (f : Frame) : Nat := (f.extractLsb' 13 13).toNat

/-- `w[12:0]`: `off` of format T. -/
def offOf (f : Frame) : Nat := (f.extractLsb' 0 13).toNat

/-- `w[17:16]`: `slot` of format S. -/
def slotOf (f : Frame) : Slot := slotOfBits (f.extractLsb' 16 2)

/-- `w[0]`: `k` of format K. -/
def kindOf (f : Frame) : Kind := kindOfBit (f.getLsbD 0)

/-! ### The opcode map (30_encoding.md rule R110) -/

/-- One row of rule R110: a frame `f` is the command of the row exactly when `f AND mask = pat`; `read` assembles the
operands (rule R102). -/
structure OpcodeRow where
  mnemonic : String
  pat : Frame
  mask : Frame
  read : Frame → Instr

/-- The rows of POLL and of the configuration (opcodes 0x01 to 0x04). -/
def pollRows : List OpcodeRow :=
  [ ⟨"CFGW", 0x0100000000#40, 0xFFFF000000#40, fun f => .cfgw (regOf f) (lowHalfOf f)⟩,
    ⟨"CFGR", 0x0200000000#40, 0xFFFF00FFFF#40, fun f => .cfgr (regOf f)⟩,
    ⟨"START", 0x0300000000#40, 0xFFFFFC0000#40, fun f => .start (slotOf f) (lowHalfOf f).toNat⟩,
    ⟨"STOP", 0x0400000000#40, 0xFFFFFCFFFF#40, fun f => .stop (slotOf f)⟩ ]

/-- The rows of the ADC family (opcodes 0x10 to 0x12). -/
def adcRows : List OpcodeRow :=
  [ ⟨"ADTRIG", 0x1000000000#40, 0xFFFFFFFF00#40, fun f => .adtrig (lowByteOf f).toNat⟩,
    ⟨"ADREAD", 0x1100000000#40, 0xFFFFFFFFFF#40, fun _ => .adread⟩,
    ⟨"ADMEAS", 0x1200000000#40, 0xFFFFFFFF00#40, fun f => .admeas (lowByteOf f).toNat⟩ ]

/-- The rows of the proximity/ambient family (opcodes 0x20 to 0x24). -/
def pxaRows : List OpcodeRow :=
  [ ⟨"PXTRIG", 0x2000000000#40, 0xFFFFFFFFFE#40, fun f => .pxtrig (kindOf f)⟩,
    ⟨"PXRDY", 0x2100000000#40, 0xFFFFFFFFFE#40, fun f => .pxrdy (kindOf f)⟩,
    ⟨"PXREAD", 0x2200000000#40, 0xFFFFFFFFFE#40, fun f => .pxread (kindOf f)⟩,
    ⟨"PXMEAS", 0x2300000000#40, 0xFFFFFFFFFE#40, fun f => .pxmeas (kindOf f)⟩,
    ⟨"PXLED", 0x2400000000#40, 0xFFFFFF0000#40, fun f => .pxled (lowHalfOf f).toNat⟩ ]

/-- The rows of the ultrasonic family (opcodes 0x30 to 0x32). -/
def usrRows : List OpcodeRow :=
  [ ⟨"USTRIG", 0x3000000000#40, 0xFFFFFFFFFF#40, fun _ => .ustrig⟩,
    ⟨"USREAD", 0x3100000000#40, 0xFFFFFFFFFF#40, fun _ => .usread⟩,
    ⟨"USMEAS", 0x3200000000#40, 0xFFFFFFFFFF#40, fun _ => .usmeas⟩ ]

/-- The row of the checksum unit (opcode 0x40). -/
def crcRows : List OpcodeRow :=
  [ ⟨"CRCV", 0x4000000000#40, 0xFFFC000000#40,
      fun f => .crcv (dataOf f) (lowByteOf f) (f.getLsbD 24) (f.getLsbD 25)⟩ ]

/-- The rows of PWMENC (opcodes 0x50 to 0x57). -/
def pwmRows : List OpcodeRow :=
  [ ⟨"SETFREQ", 0x5000000000#40, 0xFFFFFF0000#40, fun f => .setfreq (lowHalfOf f).toNat⟩,
    ⟨"SETPWM", 0x5100000000#40, 0xFF0C000000#40, fun f => .setpwm (channelOf f) (onOf f) (offOf f)⟩,
    ⟨"FULLON", 0x5200000000#40, 0xFF0FFFFFFF#40, fun f => .fullon (channelOf f)⟩,
    ⟨"FULLOFF", 0x5300000000#40, 0xFF0FFFFFFF#40, fun f => .fulloff (channelOf f)⟩,
    ⟨"SETDUTY", 0x5400000000#40, 0xFF0FFF0000#40, fun f => .setduty (channelOf f) (lowHalfOf f).toInt⟩,
    ⟨"SLEEP", 0x5500000000#40, 0xFFFFFFFFFF#40, fun _ => .sleep⟩,
    ⟨"WAKE", 0x5600000000#40, 0xFFFFFFFFFF#40, fun _ => .wake⟩,
    ⟨"RESTART", 0x5700000000#40, 0xFFFFFFFFFF#40, fun _ => .restart⟩ ]

/-- The 24 rows of rule R110, in its order. -/
def opcodeTable : List OpcodeRow := pollRows ++ adcRows ++ pxaRows ++ usrRows ++ crcRows ++ pwmRows

/-- The test of rule R110: "`f AND mask = match`". -/
def OpcodeRow.matches (r : OpcodeRow) (f : Frame) : Bool := f &&& r.mask == r.pat

/-! ### Decoding -/

/-- Why a frame or a byte list is no command (30_encoding.md rule R111). Safe: the block answers `ILLEGAL`. -/
inductive DecodeError
  /-- The opcode byte is in no row of the table. -/
  | unknownOpcode (op : Byte)
  /-- A listed opcode with a must-be-zero bit set. -/
  | mustBeZero (op : Byte)
  /-- A frame is presented as 5 bytes (rule R100); this list has another length. -/
  | notFiveBytes (len : Nat)
  deriving DecidableEq, Repr

/-- 47_poll.md rule R314 step 1: find the row of the table with `f AND mask = match`. -/
def decode (f : Frame) : Except DecodeError Instr :=
  match opcodeTable.find? (fun r => r.matches f) with
  | some r => .ok (r.read f)
  | none =>
    if opcodeTable.any (fun r => opcodeOf r.pat == opcodeOf f) then .error (.mustBeZero (opcodeOf f))
    else .error (.unknownOpcode (opcodeOf f))

/-- The frame of five bytes, byte 0 first, most significant byte first (30_encoding.md rule R100). -/
def frameOfBytes (b0 b1 b2 b3 b4 : Byte) : Frame := b0 ++ b1 ++ b2 ++ b3 ++ b4

/-- The five bytes of a frame, byte 0 first (30_encoding.md rule R100). -/
def frameBytes (f : Frame) : List Byte :=
  [f.extractLsb' 32 8, f.extractLsb' 24 8, f.extractLsb' 16 8, f.extractLsb' 8 8, f.extractLsb' 0 8]

/-- Decoding of bytes as they are presented (30_encoding.md rule R100). -/
def decodeBytes : List Byte → Except DecodeError Instr
  | [b0, b1, b2, b3, b4] => decode (frameOfBytes b0 b1 b2 b3 b4)
  | bs => .error (.notFiveBytes bs.length)

/-! ### Encoding -/

/-- The opcode byte of a command (30_encoding.md rule R110). -/
def Instr.opcode : Instr → Byte
  | .cfgw _ _ => 0x01#8
  | .cfgr _ => 0x02#8
  | .start _ _ => 0x03#8
  | .stop _ => 0x04#8
  | .adtrig _ => 0x10#8
  | .adread => 0x11#8
  | .admeas _ => 0x12#8
  | .pxtrig _ => 0x20#8
  | .pxrdy _ => 0x21#8
  | .pxread _ => 0x22#8
  | .pxmeas _ => 0x23#8
  | .pxled _ => 0x24#8
  | .ustrig => 0x30#8
  | .usread => 0x31#8
  | .usmeas => 0x32#8
  | .crcv _ _ _ _ => 0x40#8
  | .setfreq _ => 0x50#8
  | .setpwm _ _ _ => 0x51#8
  | .fullon _ => 0x52#8
  | .fulloff _ => 0x53#8
  | .setduty _ _ => 0x54#8
  | .sleep => 0x55#8
  | .wake => 0x56#8
  | .restart => 0x57#8

/-- The operand word `w[31:0]` of a command, by the formats of 30_encoding.md rule R101. -/
def Instr.operandWord : Instr → BitVec 32
  | .cfgw reg val => 0#8 ++ reg ++ val
  | .cfgr reg => 0#8 ++ reg ++ 0#16
  | .start slot interval => 0#14 ++ slot.bits ++ BitVec.ofNat 16 interval
  | .stop slot => 0#14 ++ slot.bits ++ 0#16
  | .adtrig b => 0#24 ++ BitVec.ofNat 8 b
  | .adread => 0#32
  | .admeas b => 0#24 ++ BitVec.ofNat 8 b
  | .pxtrig k => 0#31 ++ k.bit
  | .pxrdy k => 0#31 ++ k.bit
  | .pxread k => 0#31 ++ k.bit
  | .pxmeas k => 0#31 ++ k.bit
  | .pxled units => 0#16 ++ BitVec.ofNat 16 units
  | .ustrig => 0#32
  | .usread => 0#32
  | .usmeas => 0#32
  | .crcv data crc quirk strict => 0#6 ++ BitVec.ofBool strict ++ BitVec.ofBool quirk ++ data ++ crc
  | .setfreq hz => 0#16 ++ BitVec.ofNat 16 hz
  | .setpwm ch on off => BitVec.ofNat 4 ch ++ 0#2 ++ BitVec.ofNat 13 on ++ BitVec.ofNat 13 off
  | .fullon ch => BitVec.ofNat 4 ch ++ 0#28
  | .fulloff ch => BitVec.ofNat 4 ch ++ 0#28
  | .setduty ch pct => BitVec.ofNat 4 ch ++ 0#12 ++ BitVec.ofInt 16 pct
  | .sleep => 0#32
  | .wake => 0#32
  | .restart => 0#32

/-- The frame of a command: its opcode byte, then its operand word (30_encoding.md rule R100). -/
def encode (i : Instr) : Frame := i.opcode ++ i.operandWord

/-! ### The host's view of the opcode table -/

/-- The frame whose bits are `w`, numbered as spec/opcode_table.json numbers them: there the frame is ONE word of 40 bits,
the opcode in bits 39..32 (30_encoding.md rules R100, R110; log entry 13). Bits from `nbits` on are zero. -/
def frameOfTable (nbits w : Nat) : Frame := BitVec.ofNat 40 (w % 2 ^ nbits)

/-- The command that `decode` reads from that frame, given as the five bytes the port presents; none where it is rejected. -/
def decodeTableWord (nbits w : Nat) : Option Instr :=
  match decodeBytes (frameBytes (frameOfTable nbits w)) with
  | .ok i => some i
  | .error _ => none

end Sys2Proof
end

