-- ==== Sys2Proof/Machine/Constants.lean ====
section
/-!
DEFINITION. The constants the source fixes, each with its name in 00_scope.md rule R8 (93_implementation_defined.md U14: kept
as named constants, so that a corrected literal is a one-line change), and the codes of 60_exceptions.md rules R360 and R361.
-/

namespace Sys2Proof.Machine

/-- `OSC_HZ`: numerator of the prescale formula. -/
def oscHz : Nat := 25000000

/-- `PWM_STEPS`: ticks per PWM period; also the sentinel tick value. -/
def pwmSteps : Nat := 4096

/-- `PWM_NCHAN`: PWM channels, numbered 0 to 15. -/
def pwmNchan : Nat := 16

/-- The greatest count of a tick, short of the sentinel (45_pwm.md rule R240), and the multiplier of the duty formula (rule R252:
"4095, not 4096"). -/
def pwmCountMax : Nat := 4095

/-- `HZ_MIN`, the least legal frequency. -/
def hzMin : Nat := 24

/-- `HZ_MAX`, the greatest legal frequency. -/
def hzMax : Nat := 1526

/-- `PWM_MODE1`: mode register address. -/
def pwmMode1 : Byte := 0x00#8

/-- `PWM_PRESCALE`: prescale register address. -/
def pwmPrescale : Byte := 0xFE#8

/-- `PWM_CH_BASE`: ON_L of channel 0. -/
def pwmChBase : Nat := 0x06

/-- The channel stride of `PWM_CH_BASE`: registers of one channel. -/
def pwmChStride : Nat := 4

/-- `PWM_SETTLE_MS`: settle after sleep, wake and restart (45_pwm.md rule R258). -/
def pwmSettleMs : Half := 5#16

/-- `PXA_CMD`: command and status register address. -/
def pxaCmd : Byte := 0x80#8

/-- `PXA_LED`: IR LED current register address. -/
def pxaLed : Byte := 0x83#8

/-- `PXA_AMB_RES`: ambient result, 2 bytes. -/
def pxaAmbRes : Byte := 0x85#8

/-- `PXA_PROX_RES`: proximity result, 2 bytes. -/
def pxaProxRes : Byte := 0x87#8

/-- `PXA_TRIG_AMB`: trigger ambient, bit 3. -/
def pxaTrigAmb : Byte := 0x08#8

/-- `PXA_TRIG_PROX`: trigger proximity, bit 4. -/
def pxaTrigProx : Byte := 0x10#8

/-- `PXA_RDY_AMB`: ambient ready, bit 1, 1 = ready. -/
def pxaRdyAmb : Byte := 0x02#8

/-- `PXA_RDY_PROX`: proximity ready, bit 2, 1 = ready. -/
def pxaRdyProx : Byte := 0x04#8

/-- `PXA_LED_MAX`: largest IR LED current value, in units of 10 mA. -/
def pxaLedMax : Nat := 20

/-- `ADC_RES_PTR`: ADC result pointer. -/
def adcResPtr : Byte := 0x00#8

/-- `USR_CMD_REG`: ultrasonic command register. -/
def usrCmdReg : Byte := 0x00#8

/-- `USR_CMD_RANGE_CM`: begin ranging, in centimetres. -/
def usrCmdRangeCm : Byte := 0x51#8

/-- `USR_RES_REG`: ultrasonic result register, 2 bytes. -/
def usrResReg : Byte := 0x02#8

/-- `USR_RANGE_DELAY_MS`: the fixed delay of a ranging. -/
def usrRangeDelayMs : Half := 70#16

/-- `CRC_POLY`: CRC-8 generator polynomial, with its leading term. -/
def crcPoly : BitVec 9 := 0x131#9

/-- `CRC_QUIRK`: XOR applied to the supplied CRC on one device variant. -/
def crcQuirk : Byte := 0x62#8

/-- The slot code of an exception that belongs to no device slot (44_codec_crc.md rule R214). -/
def noSlotCode : Byte := 0xFF#8

end Sys2Proof.Machine
end

