-- ==== Sys2Proof/Machine/State.lean ====
section
/-!
DEFINITION. The state of the block (10_state.md), as plain data, its reset values (10_state.md rule R48), and the reasons a
step can stop.
-/

namespace Sys2Proof.Machine

/-! ### Records on the ports -/

/-- The four exception kinds (60_exceptions.md rule R360). -/
inductive ExcKind
  | busError
  | timeout
  | checksumError
  | rangeError
  deriving DecidableEq, Repr, Inhabited

/-- The status codes of a response (60_exceptions.md rule R361). -/
inductive Status
  | ok
  | busError
  | timeout
  | checksumError
  | rangeError
  | busy
  | stopped
  | illegal
  | ignored
  | absent
  deriving DecidableEq, Repr, Inhabited

/-- A response record (10_state.md rule R44): the opcode byte of the command answered, a status, a value or 0. -/
structure Response where
  opcode : Byte
  status : Status
  value : Word
  deriving DecidableEq, Repr

/-- An event record (10_state.md rule R45). `positionFound` is published by the host only (46_sweep_host.md rule R288). -/
inductive Event
  | channelReadingDone (rawValue : Word) (channel : Byte) (deviceAddress : Byte)
  | proximityReceived (rawValue : Word) (distance : Distance)
  | ambientLightReceived (rawValue : Word)
  | positionFound (angle : Int) (distance : Distance) (rawValue : Word)
  | sensorException (kind : ExcKind) (slot : Byte)
  | rangeReceived (rawValue : Word)
  deriving DecidableEq, Repr

/-- The three bus primitives (20_memory.md rule R61). `read` alone is never issued (rule R65). -/
inductive BusOp
  | write (bytes : List Byte)
  | read (n : Nat)
  | writeThenRead (wbytes : List Byte) (n : Nat)
  deriving DecidableEq, Repr

/-- One entry of the trace (20_memory.md rule R81). A bus entry carries the bytes read (none of them for a write), or `none`
for `Fail`. -/
inductive TraceEntry
  | bus (d : Slot) (op : BusOp) (answer : Option (List Byte))
  | delay (d : Slot) (ms : Half)
  | evt (e : Event)
  | rsp (r : Response)
  deriving DecidableEq, Repr

/-! ### The sequencer (10_state.md rule R33) -/

/-- `op` and `args` of rule R33 in one value: the constructor is the operation being run, its arguments are the operands and
the configuration latched at acceptance (rule R36), each as the operation's own rule names them. The three `…Cycle` are the
`CYCLE` of slots 0, 1 and 2. The two latched values that a program also assigns, `args.ch` of slot 0 and `k` of slot 1, are
fields of `Seq` (log entry 8). -/
inductive Op
  | idle
  | adtrig (cfg : Half)
  | adread
  | admeas (cfg : Half) (delayMs : Half) (address : BitVec 7)
  | adcCycle (mask : Byte) (delayMs : Half) (address : BitVec 7)
  | pxtrig
  | pxrdy
  | pxread
  | pxmeas (gapMs : Half)
  | pxaCycle (kinds : BitVec 2) (pmAmb : Half) (pmProx : Half) (gapMs : Half)
  | pxled (units : Half)
  | ustrig
  | usread
  | usmeas
  | usrCycle
  | setfreq (p : Byte) (slp : Byte) (rst : Byte)
  | setpwm (base : Byte) (on : Half) (off : Half)
  | fullon (base : Byte) (on : Half) (off : Half)
  | fulloff (base : Byte) (on : Half) (off : Half)
  | setduty (base : Byte) (on : Half) (off : Half)
  | sleep (slp : Byte) (rst : Byte)
  | wake (slp : Byte) (rst : Byte)
  | restart (slp : Byte) (rst : Byte)
  deriving DecidableEq, Repr, Inhabited

/-- What started the operation (10_state.md rule R33). -/
inductive Origin
  | cmd
  | tick
  deriving DecidableEq, Repr, Inhabited

/-- `seq[d].step`: the index of the next micro-step in the program, or `FAILEXIT` (10_state.md rules R33, R34). -/
inductive Position
  | at (k : Nat)
  | failExit
  deriving DecidableEq, Repr

/-- `seq[d].exc`: the pending exception (10_state.md rule R33). -/
inductive Pending
  | none
  | busError
  | timeout
  deriving DecidableEq, Repr, Inhabited

/-- The state of one slot's sequencer (10_state.md rule R33). -/
structure Seq where
  /-- `op` with its `args`. -/
  op : Op
  origin : Origin
  /-- The opcode byte of the command (origin CMD only). -/
  opcode : Byte
  step : Position
  /-- `args.ch`, the ADC channel being measured (slot 0). -/
  ch : Byte
  /-- The byte of a read-modify-write between its read and its write. -/
  tmp : Byte
  /-- The bytes of the last BusWriteThenRead. -/
  rd : List Byte
  /-- Status reads left in a ready wait. -/
  n : Half
  /-- The kind being measured (slot 1). -/
  k : Kind
  /-- The next ADC channel to look at (slot 0); the next kind to look at (slot 1). -/
  cursor : Nat
  exc : Pending
  deriving DecidableEq, Repr

/-- A sequencer after reset: `op = IDLE`, `exc = NONE` (10_state.md rule R48). DESIGN CHOICE, unsafe (log entry 6): the spec
leaves every other field unspecified, and never read, while `op = IDLE`; the model names these values. -/
def Seq.reset : Seq :=
  { op := .idle, origin := .cmd, opcode := 0#8, step := .at 0, ch := 0#8, tmp := 0#8, rd := [], n := 0#16, k := .amb,
    cursor := 0, exc := .none }

/-! ### Families of registers -/

/-- One value for each of the four slots. -/
structure PerSlot (α : Type) where
  adc : α
  pxa : α
  usr : α
  pwm : α
  deriving DecidableEq, Repr

/-- One value for each of the three slots with a timer and a result register. -/
structure PerSensor (α : Type) where
  adc : α
  pxa : α
  usr : α
  deriving DecidableEq, Repr

/-! ### The state -/

/-- Everything the spec gives the block (10_state.md rules R22 to R33, R44, R45; 20_memory.md rule R81), and two fields of
the model's own, `inputs` and `turn` (log entry 1). -/
structure State where
  /-- `guard[d]` (R22). -/
  guard : PerSlot Bool
  /-- `timer_en[d]` (R23). -/
  timerEn : PerSensor Bool
  /-- `stopped[d]` (R24). -/
  stopped : PerSlot Bool
  /-- `interval[d]` (R25). -/
  interval : PerSensor Half
  /-- `RES[d]` (R26), two's complement. -/
  res : PerSensor Word
  /-- `res_valid[d]` (R26). -/
  resValid : PerSensor Bool
  /-- `last_status` (R27). -/
  lastStatus : Byte
  /-- `adc_cur_ch` (R28). -/
  adcCurCh : Byte
  /-- `crc_ok` (R29). -/
  crcOk : Bool
  /-- `skip_count[d]` (R30). -/
  skipCount : PerSensor Half
  /-- `pwm_errcnt` (R31). -/
  pwmErrcnt : Half
  /-- `ADC_CHMASK` (R32). -/
  adcChmask : Half
  /-- `PXA_KINDS` (R32). -/
  pxaKinds : Half
  /-- `POLL_MAX_AMB` (R32). -/
  pollMaxAmb : Half
  /-- `POLL_MAX_PROX` (R32). -/
  pollMaxProx : Half
  /-- `POLL_GAP_MS` (R32). -/
  pollGapMs : Half
  /-- `seq[d]` (R33). -/
  seq : PerSlot Seq
  /-- The trace (20_memory.md rule R81), oldest entry first; the records of the RSP and EVT ports (R44, R45) stand in it, in
  the order of the micro-steps that append them. -/
  trace : List TraceEntry
  /-- The MODEL's own: the inputs presented and not yet taken, oldest first. -/
  inputs : List Input
  /-- The MODEL's own: how many free inputs have been taken. -/
  turn : Nat
  deriving DecidableEq, Repr

/-- The block after reset with the parameters `p` (10_state.md rule R48; 70_reset_and_hazards.md rule R400). `inputs` and
`turn` are the model's own (DESIGN CHOICE, log entry 1): nothing is presented. -/
def State.resetWith (p : Params) : State :=
  { guard := ⟨false, false, false, false⟩
    timerEn := ⟨false, false, false⟩
    stopped := ⟨false, false, false, false⟩
    interval := ⟨0#16, 0#16, 0#16⟩
    res := ⟨0#32, 0#32, 0#32⟩
    resValid := ⟨false, false, false⟩
    lastStatus := 0x00#8
    adcCurCh := 0x00#8
    crcOk := false
    skipCount := ⟨0#16, 0#16, 0#16⟩
    pwmErrcnt := 0#16
    adcChmask := 0x0000#16
    pxaKinds := 0x0000#16
    pollMaxAmb := p.pollMaxReset
    pollMaxProx := p.pollMaxReset
    pollGapMs := p.pollGapReset
    seq := ⟨Seq.reset, Seq.reset, Seq.reset, Seq.reset⟩
    trace := []
    inputs := []
    turn := 0 }

/-- This block after reset. -/
def State.reset : State := State.resetWith Config.params

/-! ### Reasons to stop -/

/-- The faults of the model. No rule of the spec stops the block: each of these is raised by `microStep` only, on sequencer
contents that no run from reset reaches (log entry 11). Safe: the model stops where the spec says nothing. -/
inductive Fault
  /-- Raised by `microStep`: the program of the running operation has no micro-step at this position. Safe. -/
  | noSuchMicroStep (d : Slot)
  /-- Raised by `microStep`: the sequencer of slot `d` holds an operation of another slot. Safe. -/
  | operationOfAnotherSlot (d : Slot)
  /-- Raised by `microStep`: a fail-exit with no pending exception. Safe. -/
  | noPendingException (d : Slot)
  deriving DecidableEq, Repr

/-- The refusals of the model. -/
inductive Refusal
  /-- Raised by `exec` for a command that has no meaning in the model; no arm of `exec` raises it. Safe. -/
  | notModelled (mnemonic : String)
  deriving DecidableEq, Repr

end Sys2Proof.Machine
end

