-- ==== Sys2Proof/Machine/Operands.lean ====
section
/-!
DEFINITION. The values commands compute with: joins and splits (00_scope.md rule R13), slot numbers and codes, legal operand
ranges (60_exceptions.md rule R365), the ADC's config word, the PWM encoder's formulas (45_pwm.md).
-/

namespace Sys2Proof

/-- The slot of a sensor (10_state.md rule R20). -/
def Sensor.slot : Sensor → Slot
  | .adc => .adc
  | .pxa => .pxa
  | .usr => .usr

/-- The sensor of a slot that has a timer and a result register; slot 3 has none (10_state.md rule R20). -/
def Slot.sensor : Slot → Option Sensor
  | .adc => some .adc
  | .pxa => some .pxa
  | .usr => some .usr
  | .pwm => none

/-- The slot number as an event field (10_state.md rule R45). -/
def Slot.code (d : Slot) : Byte := d.bits.setWidth 8

end Sys2Proof

namespace Sys2Proof.Machine

/-! ### Codes of the records -/

/-- The code of an exception kind (60_exceptions.md rule R360). -/
def ExcKind.code : ExcKind → Byte
  | .busError => 1#8
  | .timeout => 2#8
  | .checksumError => 3#8
  | .rangeError => 4#8

/-- The code of a status (60_exceptions.md rule R361). -/
def Status.code : Status → Byte
  | .ok => 0#8
  | .busError => 1#8
  | .timeout => 2#8
  | .checksumError => 3#8
  | .rangeError => 4#8
  | .busy => 5#8
  | .stopped => 6#8
  | .illegal => 7#8
  | .ignored => 8#8
  | .absent => 9#8

/-- The tag of an event (10_state.md rule R45). -/
def Event.tag : Event → Byte
  | .channelReadingDone _ _ _ => 1#8
  | .proximityReceived _ _ => 2#8
  | .ambientLightReceived _ => 3#8
  | .positionFound _ _ _ => 4#8
  | .sensorException _ _ => 5#8
  | .rangeReceived _ => 6#8

/-! ### Joins and splits (00_scope.md rule R13) -/

/-- `join16(hi, lo) = (hi << 8) OR lo`. -/
def join16 (hi lo : Byte) : Half := (hi.setWidth 16 <<< 8) ||| lo.setWidth 16

/-- `hi8(v) = (v >> 8) AND 0xFF`. -/
def hi8 (v : Half) : Byte := (v >>> 8).setWidth 8

/-- `lo8(v) = v AND 0xFF`. -/
def lo8 (v : Half) : Byte := v.setWidth 8

/-- `zext_16` to a result register (30_encoding.md rule R122). -/
def zext16 (v : Half) : Word := v.setWidth 32

/-- Byte `i` of the bytes read; the answer has exactly the bytes asked for (20_memory.md rule R62), so the 0 for a byte that is
not there is never taken. -/
def byteAt (rd : List Byte) (i : Nat) : Byte := rd.getD i 0#8

/-- The raw measurement of a 2-byte result, high byte first (20_memory.md rule R67; 30_encoding.md rule R122). -/
def rawOf (rd : List Byte) : Half := join16 (byteAt rd 0) (byteAt rd 1)

/-- The sentinel -1 of a result register, "never a valid measurement" (10_state.md rule R26). -/
def absentReading : Word := 0xFFFFFFFF#32

/-! ### The ADC's config word (41_codec_adc.md rule R141) -/

/-- `cfg(ch) = ADC_MUX[ch] OR ADC_PGA OR ADC_RATE OR ADC_MODE`. -/
def cfgWord (p : Params) (ch : Nat) : Half := p.adcMux ch ||| p.adcPga ||| p.adcRate ||| p.adcMode

/-- `deviceAddress`: the 7-bit slave address in the `u8` field of the event (10_state.md rule R45). -/
def deviceAddress (address : BitVec 7) : Byte := address.setWidth 8

/-! ### The PWM encoder (45_pwm.md) -/

/-- `prescale(hz)`, rule R232 in its integer form: `floor((25_000_000 + 2048 * hz) / (4096 * hz)) - 1`. -/
def prescale (hz : Nat) : Nat := (oscHz + pwmSteps / 2 * hz) / (pwmSteps * hz) - 1

/-- The legal frequencies (rule R233): "valid range `[24, 1526]`". -/
def hzLegal (hz : Nat) : Bool := decide (hzMin ≤ hz) && decide (hz ≤ hzMax)

/-- The legal tick values 0..4096 (rule R240). -/
def tickLegal (v : Nat) : Bool := decide (v ≤ pwmSteps)

/-- `duty(pct)`, rule R252 in its integer form: `floor((4095 * pct + 50) / 100)`. -/
def duty (pct : Nat) : Nat := (pwmCountMax * pct + 50) / 100

/-- `base = 0x06 + 4 * ch` (rule R241). -/
def channelBase (ch : Nat) : Byte := BitVec.ofNat 8 (pwmChBase + pwmChStride * ch)

/-- The MODE1 byte that sleep writes (rule R259). -/
def sleepByte (slp rst tmp : Byte) : Byte := (tmp &&& ~~~rst) ||| slp

/-- The MODE1 byte that wake writes (rule R259). -/
def wakeByte (slp rst tmp : Byte) : Byte := tmp &&& ~~~slp &&& ~~~rst

/-- The MODE1 byte that restart writes (rule R259). -/
def restartByte (slp rst tmp : Byte) : Byte := (tmp &&& ~~~slp) ||| rst

/-! ### The proximity/ambient sensor (42_codec_pxa.md rule R161) -/

/-- `trig(k)`. -/
def trigMask : Kind → Byte
  | .amb => pxaTrigAmb
  | .prox => pxaTrigProx

/-- `rdy(k)`. -/
def readyMask : Kind → Byte
  | .amb => pxaRdyAmb
  | .prox => pxaRdyProx

/-- `res(k)`. -/
def resultRegister : Kind → Byte
  | .amb => pxaAmbRes
  | .prox => pxaProxRes

/-- The legal IR LED currents 0..20 (42_codec_pxa.md rule R175). -/
def unitsLegal (units : Nat) : Bool := decide (units ≤ pxaLedMax)

end Sys2Proof.Machine
end

