-- ==== Sys2Proof/Machine/Flags.lean ====
section
/-!
DEFINITION. The one-bit results and the counters: the checksum (44_codec_crc.md), the ready bits (42_codec_pxa.md rule R171),
the saturating counters (60_exceptions.md rule R376), the bits of `SLOTSTAT` (10_state.md rule R40).
-/

namespace Sys2Proof.Machine

/-! ### The checksum -/

/-- The low eight bits of `CRC_POLY`, XORed in when a 1 is shifted out (44_codec_crc.md rule R211). -/
def crcPolyLow : Byte := crcPoly.setWidth 8

/-- `CRC_POLY << 15`, the first divisor of the long division (44_codec_crc.md rule R212). -/
def crcDivisor : BitVec 24 := crcPoly.setWidth 24 <<< 15

/-- One shift of the CRC register (44_codec_crc.md rule R211). -/
def crcShift (reg : Byte) : Byte :=
  if reg.getLsbD 7 then (reg <<< 1) ^^^ crcPolyLow else reg <<< 1

/-- One byte of the message: XORed into the register, then eight shifts (rule R211). -/
def crcByte (reg byte : Byte) : Byte := crcShift^[8] (reg ^^^ byte)

/-- `crc8(data)`: initial register 0x00, high byte first, no reflection, no final XOR (rule R211). -/
def crc8 (data : Half) : Byte := crcByte (crcByte 0x00#8 (hi8 data)) (lo8 data)

/-- One subtraction step of the long division of rule R212: at bit `23 - i`, with the divisor shifted down `i` times. -/
def divisionStep (rem : BitVec 24) (i : Nat) : BitVec 24 :=
  if rem.getLsbD (23 - i) then rem ^^^ (crcDivisor >>> i) else rem

/-- `divides(data, c)`: the 24-bit value `(data << 8) OR c` leaves remainder 0 on division by the generator (rule R212). -/
def crcDivides (data : Half) (c : Byte) : Bool := (List.range 16).foldl divisionStep (data ++ c) == 0#24

/-- `valid(data, crc, variant)` (rule R213): variant 1 compares with `crc XOR 0x62`. -/
def crcValid (data : Half) (crc : Byte) (quirk : Bool) : Bool :=
  crc8 data == (if quirk then crc ^^^ crcQuirk else crc)

/-! ### The ready bits -/

/-- `(status AND rdy(k)) != 0`: 1 means ready (42_codec_pxa.md rules R161, R165, R171). -/
def isReady (k : Kind) (status : Byte) : Bool := status &&& readyMask k != 0#8

/-! ### Counters -/

/-- `min(c + 1, 65535)` (45_pwm.md rule R231; 47_poll.md rule R321). -/
def saturatingSucc (c : Half) : Half := if c = 0xFFFF#16 then c else c + 1#16

/-! ### Status bits -/

/-- `SLOTSTAT[d]`: bit 0 `guard`, bit 1 `timer_en`, bit 2 `stopped`, bit 3 `res_valid`, bits 15..4 zero (10_state.md rule
R40). -/
def slotStatus (guard timerEn stopped resValid : Bool) : Half :=
  0#12 ++ BitVec.ofBool resValid ++ BitVec.ofBool stopped ++ BitVec.ofBool timerEn ++ BitVec.ofBool guard

/-- A 1-bit state as a register or response value. -/
def bitValue (b : Bool) : Word := if b then 1#32 else 0#32

end Sys2Proof.Machine
end

