-- ==== Sys2Proof/Machine/Frames.lean ====
section
/-!
DEFINITION. The wire frames F1 to F16, every transaction the block can issue (30_encoding.md rule R120), built from the two
register accesses of 20_memory.md rules R63 and R64.
-/

namespace Sys2Proof.Machine

/-- `RegRead(d, a, n) = BusWriteThenRead(d, [a], n)` (20_memory.md rule R63). -/
def regRead (a : Byte) (n : Nat) : BusOp := .writeThenRead [a] n

/-- `RegWrite(d, a, data) = BusWrite(d, [a] ++ data)` (20_memory.md rule R64). -/
def regWrite (a : Byte) (data : List Byte) : BusOp := .write (a :: data)

/-- How many bytes a primitive asks the target for (20_memory.md rule R61). -/
def BusOp.asked : BusOp → Nat
  | .write _ => 0
  | .read n => n
  | .writeThenRead _ n => n

/-- F1: trigger a conversion; pointer byte, then the config word high byte first. -/
def frameAdcTrigger (p : Params) (cfg : Half) : BusOp := regWrite p.adcCfgPtr [hi8 cfg, lo8 cfg]

/-- F2: read the ADC result. -/
def frameAdcResult : BusOp := regRead adcResPtr 2

/-- F3: read the PXA command/status register. -/
def framePxaStatus : BusOp := regRead pxaCmd 1

/-- F4: write back the PXA command register with the trigger bit set (42_codec_pxa.md rule R162). -/
def framePxaTrigger (tmp : Byte) (k : Kind) : BusOp := regWrite pxaCmd [tmp ||| trigMask k]

/-- F5: set the IR LED current. -/
def framePxaLed (units : Half) : BusOp := regWrite pxaLed [lo8 units]

/-- F6 (ambient) and F7 (proximity): read the result of kind `k`. -/
def framePxaResult (k : Kind) : BusOp := regRead (resultRegister k) 2

/-- F8: begin ranging in centimetres. -/
def frameUsrTrigger : BusOp := regWrite usrCmdReg [usrCmdRangeCm]

/-- F9: read the range. -/
def frameUsrResult : BusOp := regRead usrResReg 2

/-- F10: read MODE1. -/
def framePwmMode : BusOp := regRead pwmMode1 1

/-- F11: write MODE1. -/
def framePwmModeWrite (m : Byte) : BusOp := regWrite pwmMode1 [m]

/-- F12: write the prescale. -/
def framePwmPrescale (v : Byte) : BusOp := regWrite pwmPrescale [v]

/-- F13 `ON_L`. -/
def frameOnLow (base : Byte) (on : Half) : BusOp := regWrite base [lo8 on]

/-- F14 `ON_H`. -/
def frameOnHigh (base : Byte) (on : Half) : BusOp := regWrite (base + 1#8) [hi8 on]

/-- F15 `OFF_L`. -/
def frameOffLow (base : Byte) (off : Half) : BusOp := regWrite (base + 2#8) [lo8 off]

/-- F16 `OFF_H`. -/
def frameOffHigh (base : Byte) (off : Half) : BusOp := regWrite (base + 3#8) [hi8 off]

/-- `(BUS_NAME, SLAVE[d])`: what `d` selects in a transaction (20_memory.md rule R61). -/
def busAddress (p : Params) (d : Slot) : String × BitVec 7 := (p.busName, p.slave d)

end Sys2Proof.Machine
end

