-- ==== Sys2Proof/Machine/Ops.lean ====
section
/-!
DEFINITION. The shared operations of the block: register families, the ports, acceptance and the guard (47_poll.md rule R314
steps 4 to 6, rule R321), micro-steps (10_state.md rules R34, R35), and the exception entry (60_exceptions.md rules R362, R366).
-/

namespace Sys2Proof.Machine

/-! ### Register families -/

/-- The value of slot `d`. -/
def PerSlot.get {α : Type} (v : PerSlot α) : Slot → α
  | .adc => v.adc
  | .pxa => v.pxa
  | .usr => v.usr
  | .pwm => v.pwm

/-- `v` with the value of slot `d` replaced. -/
def PerSlot.set {α : Type} (v : PerSlot α) (d : Slot) (x : α) : PerSlot α :=
  match d with
  | .adc => { v with adc := x }
  | .pxa => { v with pxa := x }
  | .usr => { v with usr := x }
  | .pwm => { v with pwm := x }

/-- The value of sensor `d`. -/
def PerSensor.get {α : Type} (v : PerSensor α) : Sensor → α
  | .adc => v.adc
  | .pxa => v.pxa
  | .usr => v.usr

/-- `v` with the value of sensor `d` replaced. -/
def PerSensor.set {α : Type} (v : PerSensor α) (d : Sensor) (x : α) : PerSensor α :=
  match d with
  | .adc => { v with adc := x }
  | .pxa => { v with pxa := x }
  | .usr => { v with usr := x }

/-! ### Updates of the state -/

/-- `guard[d] <- b`. -/
def State.setGuard (s : State) (d : Slot) (b : Bool) : State := { s with guard := s.guard.set d b }

/-- `seq[d] <- q`. -/
def State.setSeq (s : State) (d : Slot) (q : Seq) : State := { s with seq := s.seq.set d q }

/-- `seq[d].step <- k`. -/
def State.goto (s : State) (d : Slot) (k : Nat) : State := s.setSeq d { s.seq.get d with step := .at k }

/-- `RES[d] <- v; res_valid[d] <- b`. -/
def State.setRes (s : State) (d : Sensor) (v : Word) (b : Bool) : State :=
  { s with res := s.res.set d v, resValid := s.resValid.set d b }

/-- Append an entry to the trace (20_memory.md rule R81). -/
def State.emit (s : State) (e : TraceEntry) : State := { s with trace := s.trace ++ [e] }

/-- `publish <Event>` (10_state.md rule R45). -/
def State.publish (s : State) (e : Event) : State := s.emit (.evt e)

/-- `respond(status, value)` to the command of this opcode (10_state.md rule R44). -/
def State.respond (s : State) (opcode : Byte) (status : Status) (value : Word) : State :=
  s.emit (.rsp { opcode := opcode, status := status, value := value })

/-- `pwm_errcnt <- min(pwm_errcnt + 1, 65535)` (45_pwm.md rule R231). -/
def State.countPwmError (s : State) : State := { s with pwmErrcnt := saturatingSucc s.pwmErrcnt }

/-- The records on the RSP port (10_state.md rule R44): the responses of the trace, in order. -/
def State.rspPort (s : State) : List Response :=
  s.trace.filterMap fun e => match e with | .rsp r => some r | _ => none

/-- The records on the EVT port (10_state.md rule R45): the events of the trace, in order. -/
def State.evtPort (s : State) : List Event :=
  s.trace.filterMap fun e => match e with | .evt v => some v | _ => none

/-! ### Acceptance -/

/-- 47_poll.md rule R314 step 6: the guard is set and the sequencer starts at step 1 of the program. `latch` writes what the
command's rule names: the operation with its operands and configuration, and `k`, `n` or `ch` where it names them. The fields it
does not name keep what they held (DESIGN CHOICE: unspecified, never read before they are written; log entry 7). -/
def State.beginCommand (s : State) (d : Slot) (opcode : Byte) (latch : Seq → Seq) : State :=
  (s.setGuard d true).setSeq d
    (latch { s.seq.get d with origin := .cmd, opcode := opcode, step := .at 1, exc := .none })

/-- 47_poll.md rule R314 steps 4 to 6: `STOPPED`, then `BUSY`, then the start; test and set are one atomic step. -/
def State.startCommand (s : State) (d : Slot) (opcode : Byte) (latch : Seq → Seq) : State :=
  if s.stopped.get d then s.respond opcode .stopped 0#32
  else if s.guard.get d then s.respond opcode .busy 0#32
  else s.beginCommand d opcode latch

/-- 47_poll.md rule R321, the accepted tick: guard set, `origin = TICK`, `cursor = 0`. -/
def State.beginCycle (s : State) (d : Slot) (op : Op) : State :=
  (s.setGuard d true).setSeq d
    { s.seq.get d with op := op, origin := .tick, step := .at 1, cursor := 0, exc := .none }

/-! ### Taking an exception -/

/-- `raise <Kind>(d)` (60_exceptions.md rule R362): "`seq[d].exc <- Kind; seq[d].step <- FAILEXIT`. Nothing else happens in
that micro-step". -/
def State.raise (s : State) (d : Slot) (e : Pending) : State :=
  s.setSeq d { s.seq.get d with exc := e, step := .failExit }

/-- Whether an operation is a cycle: the tick cycles, `ADMEAS`, `PXMEAS`, `USMEAS` (47_poll.md rule R312). -/
def Op.isCycle : Op → Bool
  | .admeas _ _ _ => true
  | .adcCycle _ _ _ => true
  | .pxmeas _ => true
  | .pxaCycle _ _ _ _ => true
  | .usmeas => true
  | .usrCycle => true
  | _ => false

/-- 60_exceptions.md rule R366, first lines: on `Timeout`, `RES[d] <- -1; res_valid[d] <- 0`. -/
def State.markAbsent (s : State) (d : Slot) (kind : ExcKind) : State :=
  match kind, d.sensor with
  | .timeout, some e => s.setRes e absentReading false
  | _, _ => s

/-- Rule R366: slot 3 counts the failure, a cycle publishes `SensorException`, a primitive of slots 0 to 2 does neither. -/
def State.reportException (s : State) (d : Slot) (kind : ExcKind) : State :=
  if d = .pwm then s.countPwmError
  else if (s.seq.get d).op.isCycle then s.publish (.sensorException kind d.code)
  else s

/-- The end of an operation (10_state.md rule R35): `guard[d] <- 0; seq[d].op <- IDLE`. -/
def State.release (s : State) (d : Slot) : State :=
  (s.setGuard d false).setSeq d { s.seq.get d with op := .idle }

/-- `seq[d].exc <- NONE` (60_exceptions.md rule R366). -/
def State.clearException (s : State) (d : Slot) : State := s.setSeq d { s.seq.get d with exc := .none }

/-- The answer to the operation's command; none for a tick (10_state.md rules R35, R44). `q` is the sequencer before the
operation ended. -/
def State.answer (s : State) (q : Seq) (status : Status) (value : Word) : State :=
  match q.origin with
  | .cmd => s.respond q.opcode status value
  | .tick => s

/-- `FAILEXIT(d)` with the pending kind (60_exceptions.md rule R366): the one exception entry of the block. It goes nowhere and
saves nothing (rules R366, R370), and there is no return from it (rule R371): the slot is idle. -/
def State.failExit (s : State) (d : Slot) (kind : ExcKind) (status : Status) (value : Word) : State :=
  ((((s.markAbsent d kind).reportException d kind).release d).clearException d).answer (s.seq.get d) status value

/-! ### Micro-steps -/

/-- The five kinds of action of 10_state.md rule R34: `W` and `WR` are `bus` (`after` holds the assignments written on the
action's line, given the bytes read), `D` is `delay`, `X` is `internal`, and `RETIRE` gives the program's final writes and the
value of its response. An `after` or an `internal` that jumps writes the step itself. -/
inductive Action
  | bus (op : BusOp) (after : List Byte → State → State)
  | delay (ms : Half) (next : Nat)
  | internal (act : State → State)
  | retire (final : State → State) (value : State → Word)

/-- The bytes of an answer of exactly `n` bytes; anything else is `Fail` (20_memory.md rule R62; log entry 3). -/
def answerBytes (n : Nat) : BusAnswer → Option (List Byte)
  | .ok rbytes => if rbytes.length = n then some rbytes else none
  | .fail => none

/-- `seq[d].rd` holds the bytes of the last BusWriteThenRead (10_state.md rules R33, R34). -/
def State.latchRead (s : State) (d : Slot) (op : BusOp) (rbytes : List Byte) : State :=
  match op with
  | .write _ => s
  | _ => s.setSeq d { s.seq.get d with rd := rbytes }

/-- `RETIRE` (10_state.md rule R35): the final writes, then `guard[d] <- 0; seq[d].op <- IDLE`, then the response. -/
def State.retire (s : State) (d : Slot) (final : State → State) (value : State → Word) : State :=
  ((final s).release d).answer (s.seq.get d) .ok (value (final s))

/-- One action at step `k` of slot `d`, with the answer the bus gives it (10_state.md rule R34). -/
def State.perform (s : State) (d : Slot) (k : Nat) (ans : BusAnswer) : Action → State
  | .bus op after =>
    match answerBytes op.asked ans with
    | some rd => after rd (((s.emit (.bus d op (some rd))).latchRead d op rd).goto d (k + 1))
    | none => (s.emit (.bus d op none)).raise d .busError
  | .delay ms next => (s.emit (.delay d ms)).goto d next
  | .internal act => act (s.goto d (k + 1))
  | .retire final value => s.retire d final value

/-- A bus action with no assignment on its line. -/
def Action.plain (op : BusOp) : Action := .bus op fun _ s => s

/-- `seq[d].tmp <- v`. -/
def State.setTmp (s : State) (d : Slot) (v : Byte) : State := s.setSeq d { s.seq.get d with tmp := v }

end Sys2Proof.Machine
end

