-- ==== Sys2Proof/Machine/Adc.lean ====
section
/-!
DEFINITION. CODEC, ADC family (41_codec_adc.md): `ADTRIG`, `ADREAD`, `ADMEAS` and the ADC cycle. Each command is its
acceptance step and the program of micro-steps that its sequencer then takes.
-/

namespace Sys2Proof.Machine

/-- A channel index `b >= ADC_NCHAN` is unsupported (rule R142). -/
def channelAbsent (p : Params) (b : Nat) : Bool := decide (p.adcNchan ≤ b)

/-! ### `ADTRIG` (rule R143) -/

/-- The acceptance step of `ADTRIG b`. -/
def acceptAdtrig (p : Params) (b : Nat) (s : State) : State :=
  let opcode := (Instr.adtrig b).opcode
  if channelAbsent p b then s.respond opcode .absent 0#32
  else s.startCommand .adc opcode fun q => { q with op := .adtrig (cfgWord p b), ch := BitVec.ofNat 8 b }

/-- The program of `ADTRIG`. -/
def adtrigProgram (p : Params) (cfg : Half) (q : Seq) : Nat → Option Action
  | 1 => some (.bus (frameAdcTrigger p cfg) fun _ s => { s with adcCurCh := q.ch })
  | 2 => some (.retire id fun _ => 0#32)
  | _ => none

/-- `ADTRIG b`. -/
def execAdtrig (b : Nat) (s : State) : Host.Outcome State Fault Refusal := .next (acceptAdtrig Config.params b s)

/-! ### `ADREAD` (rule R144) -/

/-- The acceptance step of `ADREAD`. -/
def acceptAdread (s : State) : State :=
  s.startCommand .adc Instr.adread.opcode fun q => { q with op := .adread }

/-- The program of `ADREAD`. -/
def adreadProgram (q : Seq) : Nat → Option Action
  | 1 => some (.plain frameAdcResult)
  | 2 => some (.retire (fun s => s.setRes .adc (zext16 (rawOf q.rd)) true) fun s => s.res.adc)
  | _ => none

/-- `ADREAD`. -/
def execAdread (s : State) : Host.Outcome State Fault Refusal := .next (acceptAdread s)

/-! ### `ADMEAS` (rule R145) -/

/-- The acceptance step of `ADMEAS b`; an absent channel also leaves a "zero/absent reading" (rule R142). -/
def acceptAdmeas (p : Params) (b : Nat) (s : State) : State :=
  let opcode := (Instr.admeas b).opcode
  if channelAbsent p b then (s.setRes .adc 0#32 false).respond opcode .absent 0#32
  else s.startCommand .adc opcode fun q =>
    { q with op := .admeas (cfgWord p b) p.adcConvDelayMs (p.slave .adc), ch := BitVec.ofNat 8 b }

/-- The ADC publish step (rule R146). -/
def adcPublish (address : BitVec 7) (q : Seq) (s : State) : State :=
  let raw := zext16 (rawOf q.rd)
  (s.setRes .adc raw true).publish (.channelReadingDone raw q.ch (deviceAddress address))

/-- The program of `ADMEAS`. It answers `RES[0]` as it stands at the retire (rule R145 step 5). An absent `ADMEAS` accepted before step 4
is written over by the publish step, so "the events and responses are not affected" (70_reset_and_hazards.md rule R418). DEDUCED,
unsafe: that clause is read so; one accepted between steps 4 and 5 leaves the zero in `RES[0]`, which is answered (log entry 19). -/
def admeasProgram (p : Params) (cfg delayMs : Half) (address : BitVec 7) (q : Seq) : Nat → Option Action
  | 1 => some (.bus (frameAdcTrigger p cfg) fun _ s => { s with adcCurCh := q.ch })
  | 2 => some (.delay delayMs 3)
  | 3 => some (.plain frameAdcResult)
  | 4 => some (.internal (adcPublish address q))
  | 5 => some (.retire id fun s => s.res.adc)
  | _ => none

/-- `ADMEAS b`. -/
def execAdmeas (b : Nat) (s : State) : Host.Outcome State Fault Refusal := .next (acceptAdmeas Config.params b s)

/-! ### The ADC cycle (rule R147) -/

/-- The operation a `Tick(0)` starts, with the configuration it latches. -/
def adcCycleOp (p : Params) (s : State) : Op := .adcCycle (lo8 s.adcChmask) p.adcConvDelayMs (p.slave .adc)

/-- The least `ch` with `cursor <= ch < min(8, ADC_NCHAN)` and `mask[ch] = 1`. -/
def nextChannel (p : Params) (mask : Byte) (cursor : Nat) : Option Nat :=
  (List.range (min 8 p.adcNchan)).find? fun ch => decide (cursor ≤ ch) && mask.getLsbD ch

/-- Step 1 of the cycle: the next enabled channel, or the end. -/
def adcCycleSelect (p : Params) (mask : Byte) (q : Seq) (s : State) : State :=
  match nextChannel p mask q.cursor with
  | some ch => s.setSeq .adc { s.seq.adc with ch := BitVec.ofNat 8 ch, cursor := ch + 1, step := .at 2 }
  | none => s.goto .adc 6

/-- The program of the ADC cycle. -/
def adcCycleProgram (p : Params) (mask : Byte) (delayMs : Half) (address : BitVec 7) (q : Seq) : Nat → Option Action
  | 1 => some (.internal (adcCycleSelect p mask q))
  | 2 => some (.bus (frameAdcTrigger p (cfgWord p q.ch.toNat)) fun _ s => { s with adcCurCh := q.ch })
  | 3 => some (.delay delayMs 4)
  | 4 => some (.plain frameAdcResult)
  | 5 => some (.internal fun s => (adcPublish address q s).goto .adc 1)
  | 6 => some (.retire id fun _ => 0#32)
  | _ => none

end Sys2Proof.Machine
end

