-- ==== Sys2Proof/Machine/Crc.lean ====
section
/-!
DEFINITION. CODEC, checksum validation (44_codec_crc.md): `CRCV`. It uses no slot, no guard and no bus.
-/

namespace Sys2Proof.Machine

/-- `crc_ok <- b` (10_state.md rule R29). -/
def State.setCrcOk (s : State) (b : Bool) : State := { s with crcOk := b }

/-- `CRCV data, crc, variant, strict` (rule R214). A strict mismatch is the one `ChecksumError`; it has no fail-exit
(60_exceptions.md rule R368). -/
def execCrcv (data : Half) (crc : Byte) (quirk strict : Bool) (s : State) : Host.Outcome State Fault Refusal :=
  let opcode := (Instr.crcv data crc quirk strict).opcode
  let ok := crcValid data crc quirk
  let s := s.setCrcOk ok
  .next
    (if ok then s.respond opcode .ok 1#32
     else if strict then
       (s.publish (.sensorException .checksumError noSlotCode)).respond opcode .checksumError 0#32
     else s.respond opcode .ok 0#32)

end Sys2Proof.Machine
end

