-- ==== Sys2Proof/Machine/Poll.lean ====
section
/-!
DEFINITION. POLL (47_poll.md): the control registers and their commands `CFGW` and `CFGR`, the timer commands `START` and
`STOP`. All four are immediate: they complete in the acceptance step (rule R314 step 3).
-/

namespace Sys2Proof.Machine

/-! ### The control-register space (10_state.md rule R40) -/

/-- The write of a configuration register; `none` where `CFGW` answers `RANGE_ERROR`: an index that is not writable, or a
must-be-zero bit set (rules R40, R318). -/
def State.writeControl (s : State) (reg : Byte) (val : Half) : Option State :=
  match reg.toNat with
  | 0x00 => if val.extractLsb' 8 8 = 0#8 then some { s with adcChmask := val } else none
  | 0x01 => if val.extractLsb' 2 14 = 0#14 then some { s with pxaKinds := val } else none
  | 0x02 => some { s with pollMaxAmb := val }
  | 0x03 => some { s with pollMaxProx := val }
  | 0x04 => some { s with pollGapMs := val }
  | _ => none

/-- `SLOTSTAT[d]` of a sensor slot (rule R40). -/
def State.sensorStatus (s : State) (d : Sensor) : Half :=
  slotStatus (s.guard.get d.slot) (s.timerEn.get d) (s.stopped.get d.slot) (s.resValid.get d)

/-- `RES[d][15:0]` (rule R40). -/
def State.resLow (s : State) (d : Sensor) : Half := (s.res.get d).extractLsb' 0 16

/-- `RES[d][31:16]` (rule R40). -/
def State.resHigh (s : State) (d : Sensor) : Half := (s.res.get d).extractLsb' 16 16

/-- The 16-bit value of a control register; `none` for an undefined index (rule R40). -/
def State.readControl (s : State) (reg : Byte) : Option Half :=
  match reg.toNat with
  | 0x00 => some s.adcChmask
  | 0x01 => some s.pxaKinds
  | 0x02 => some s.pollMaxAmb
  | 0x03 => some s.pollMaxProx
  | 0x04 => some s.pollGapMs
  | 0x10 => some (s.sensorStatus .adc)
  | 0x11 => some (s.sensorStatus .pxa)
  | 0x12 => some (s.sensorStatus .usr)
  | 0x13 => some (slotStatus s.guard.pwm false s.stopped.pwm false)
  | 0x14 => some s.interval.adc
  | 0x15 => some s.interval.pxa
  | 0x16 => some s.interval.usr
  | 0x18 => some s.skipCount.adc
  | 0x19 => some s.skipCount.pxa
  | 0x1A => some s.skipCount.usr
  | 0x1C => some s.pwmErrcnt
  | 0x1D => some (s.lastStatus.setWidth 16)
  | 0x1E => some (0#15 ++ BitVec.ofBool s.crcOk)
  | 0x1F => some (s.adcCurCh.setWidth 16)
  | 0x20 => some (s.resLow .adc)
  | 0x21 => some (s.resLow .pxa)
  | 0x22 => some (s.resLow .usr)
  | 0x24 => some (s.resHigh .adc)
  | 0x25 => some (s.resHigh .pxa)
  | 0x26 => some (s.resHigh .usr)
  | _ => none

/-- `CFGW reg, val` (rule R318). -/
def execCfgw (reg : Byte) (val : Half) (s : State) : Host.Outcome State Fault Refusal :=
  let opcode := (Instr.cfgw reg val).opcode
  match s.writeControl reg val with
  | some s' => .next (s'.respond opcode .ok 0#32)
  | none => .next (s.respond opcode .rangeError 0#32)

/-- `CFGR reg` (rule R319). -/
def execCfgr (reg : Byte) (s : State) : Host.Outcome State Fault Refusal :=
  let opcode := (Instr.cfgr reg).opcode
  match s.readControl reg with
  | some v => .next (s.respond opcode .ok (zext16 v))
  | none => .next (s.respond opcode .rangeError 0#32)

/-! ### Timers -/

/-- `timer_en[d] <- 1; interval[d] <- interval` (rule R316). -/
def State.startTimer (s : State) (d : Sensor) (interval : Half) : State :=
  { s with timerEn := s.timerEn.set d true, interval := s.interval.set d interval }

/-- `stopped[d] <- 1; if d <= 2: timer_en[d] <- 0` (rule R317). -/
def State.stopSlot (s : State) (d : Slot) : State :=
  match d.sensor with
  | some e => { s with stopped := s.stopped.set d true, timerEn := s.timerEn.set e false }
  | none => { s with stopped := s.stopped.set d true }

/-- `START slot, interval` (rule R316; rule R314 step 3). -/
def execStart (slot : Slot) (interval : Nat) (s : State) : Host.Outcome State Fault Refusal :=
  let opcode := (Instr.start slot interval).opcode
  match slot.sensor with
  | none => .next (s.respond opcode .rangeError 0#32)
  | some d =>
    if interval = 0 then .next (s.respond opcode .rangeError 0#32)
    else if s.stopped.get slot then .next (s.respond opcode .stopped 0#32)
    else .next ((s.startTimer d (BitVec.ofNat 16 interval)).respond opcode .ok 0#32)

/-- `STOP slot` (rule R317). -/
def execStop (slot : Slot) (s : State) : Host.Outcome State Fault Refusal :=
  .next ((s.stopSlot slot).respond (Instr.stop slot).opcode .ok 0#32)

end Sys2Proof.Machine
end

