-- ==== Sys2Proof/Machine/Pwm.lean ====
section
/-!
DEFINITION. PWMENC, the PWM register encoder (45_pwm.md): `SETFREQ`, `SETPWM`, `FULLON`, `FULLOFF`, `SETDUTY`, `SLEEP`, `WAKE`,
`RESTART`. All eight use slot 3; a bus failure is counted and not published (rule R231; `State.reportException`).
-/

namespace Sys2Proof.Machine

/-- The MODE1 read: `tmp <- rd[0]` (rules R236, R260). -/
def modeToTmp (rd : List Byte) (s : State) : State := s.setTmp .pwm (byteAt rd 0)

/-! ### `SETFREQ` (rule R236) -/

/-- The acceptance step of `SETFREQ hz`. -/
def acceptSetfreq (p : Params) (hz : Nat) (s : State) : State :=
  let opcode := (Instr.setfreq hz).opcode
  if hzLegal hz then
    s.startCommand .pwm opcode fun q =>
      { q with op := .setfreq (BitVec.ofNat 8 (prescale hz)) p.mode1Sleep p.mode1Restart }
  else s.respond opcode .rangeError 0#32

/-- The program of `SETFREQ`: sleep, write prescale, wake, restart (rule R234). -/
def setfreqProgram (v slp rst : Byte) (q : Seq) : Nat → Option Action
  | 1 => some (.bus framePwmMode modeToTmp)
  | 2 => some (.plain (framePwmModeWrite (sleepByte slp rst q.tmp)))
  | 3 => some (.delay pwmSettleMs 4)
  | 4 => some (.plain (framePwmPrescale v))
  | 5 => some (.bus framePwmMode modeToTmp)
  | 6 => some (.plain (framePwmModeWrite (wakeByte slp rst q.tmp)))
  | 7 => some (.delay pwmSettleMs 8)
  | 8 => some (.bus framePwmMode modeToTmp)
  | 9 => some (.plain (framePwmModeWrite (restartByte slp rst q.tmp)))
  | 10 => some (.delay pwmSettleMs 11)
  | 11 => some (.retire id fun _ => v.setWidth 32)
  | _ => none

/-- `SETFREQ hz`. -/
def execSetfreq (hz : Nat) (s : State) : Host.Outcome State Fault Refusal :=
  .next (acceptSetfreq Config.params hz s)

/-! ### The four tick writes (rule R241) -/

/-- The program of `SETPWM`, and of the commands that are a `SETPWM` with fixed ticks (rules R245, R246, R250); `value` is the
value of the response. -/
def tickProgram (base : Byte) (on off : Half) (value : Word) : Nat → Option Action
  | 1 => some (.plain (frameOnLow base on))
  | 2 => some (.plain (frameOnHigh base on))
  | 3 => some (.plain (frameOffLow base off))
  | 4 => some (.plain (frameOffHigh base off))
  | 5 => some (.retire id fun _ => value)
  | _ => none

/-! ### `SETPWM` (rule R241) -/

/-- The acceptance step of `SETPWM ch, on, off`. -/
def acceptSetpwm (ch on off : Nat) (s : State) : State :=
  let opcode := (Instr.setpwm ch on off).opcode
  if tickLegal on && tickLegal off then
    s.startCommand .pwm opcode fun q =>
      { q with op := .setpwm (channelBase ch) (BitVec.ofNat 16 on) (BitVec.ofNat 16 off) }
  else s.respond opcode .rangeError 0#32

/-- The program of `SETPWM`. -/
def setpwmProgram (base : Byte) (on off : Half) : Nat → Option Action := tickProgram base on off 0#32

/-- `SETPWM ch, on, off`. -/
def execSetpwm (ch on off : Nat) (s : State) : Host.Outcome State Fault Refusal := .next (acceptSetpwm ch on off s)

/-! ### `FULLON` (rule R245) -/

/-- The acceptance step of `FULLON ch`: `SETPWM ch, 4096, 0` but for the opcode. -/
def acceptFullon (ch : Nat) (s : State) : State :=
  s.startCommand .pwm (Instr.fullon ch).opcode fun q =>
    { q with op := .fullon (channelBase ch) (BitVec.ofNat 16 pwmSteps) 0#16 }

/-- The program of `FULLON`. -/
def fullonProgram (base : Byte) (on off : Half) : Nat → Option Action := tickProgram base on off 0#32

/-- `FULLON ch`. -/
def execFullon (ch : Nat) (s : State) : Host.Outcome State Fault Refusal := .next (acceptFullon ch s)

/-! ### `FULLOFF` (rule R246) -/

/-- The acceptance step of `FULLOFF ch`: `SETPWM ch, 0, 4096` but for the opcode. -/
def acceptFulloff (ch : Nat) (s : State) : State :=
  s.startCommand .pwm (Instr.fulloff ch).opcode fun q =>
    { q with op := .fulloff (channelBase ch) 0#16 (BitVec.ofNat 16 pwmSteps) }

/-- The program of `FULLOFF`. -/
def fulloffProgram (base : Byte) (on off : Half) : Nat → Option Action := tickProgram base on off 0#32

/-- `FULLOFF ch`. -/
def execFulloff (ch : Nat) (s : State) : Host.Outcome State Fault Refusal := .next (acceptFulloff ch s)

/-! ### `SETDUTY` (rules R250, R251) -/

/-- The ticks `(on, off)` of a percent that acts: 0 is full off, 100 is full on, 1 to 99 are `(0, duty(pct))`; `none` is
ignored. -/
def dutyTicks (pct : Int) : Option (Nat × Nat) :=
  if pct = 0 then some (0, pwmSteps)
  else if pct = 100 then some (pwmSteps, 0)
  else if 1 ≤ pct ∧ pct ≤ 99 then some (0, duty pct.toNat)
  else none

/-- The acceptance step of `SETDUTY ch, pct`. -/
def acceptSetduty (ch : Nat) (pct : Int) (s : State) : State :=
  let opcode := (Instr.setduty ch pct).opcode
  match dutyTicks pct with
  | some (on, off) =>
    s.startCommand .pwm opcode fun q =>
      { q with op := .setduty (channelBase ch) (BitVec.ofNat 16 on) (BitVec.ofNat 16 off) }
  | none => s.respond opcode .ignored 0#32

/-- The program of `SETDUTY`; the response value is the `off` tick written. -/
def setdutyProgram (base : Byte) (on off : Half) : Nat → Option Action := tickProgram base on off (zext16 off)

/-- `SETDUTY ch, pct`. -/
def execSetduty (ch : Nat) (pct : Int) (s : State) : Host.Outcome State Fault Refusal := .next (acceptSetduty ch pct s)

/-! ### The mode register (rules R258 to R262) -/

/-- The program of a mode operation: read MODE1, write it with the byte of rule R259, settle. -/
def modeProgram (byte : Byte → Byte) (q : Seq) : Nat → Option Action
  | 1 => some (.bus framePwmMode modeToTmp)
  | 2 => some (.plain (framePwmModeWrite (byte q.tmp)))
  | 3 => some (.delay pwmSettleMs 4)
  | 4 => some (.retire id fun _ => 0#32)
  | _ => none

/-- The acceptance step of `SLEEP` (rule R260). -/
def acceptSleep (p : Params) (s : State) : State :=
  s.startCommand .pwm Instr.sleep.opcode fun q => { q with op := .sleep p.mode1Sleep p.mode1Restart }

/-- The program of `SLEEP`. -/
def sleepProgram (slp rst : Byte) (q : Seq) : Nat → Option Action := modeProgram (sleepByte slp rst) q

/-- `SLEEP`. -/
def execSleep (s : State) : Host.Outcome State Fault Refusal := .next (acceptSleep Config.params s)

/-- The acceptance step of `WAKE` (rule R261). -/
def acceptWake (p : Params) (s : State) : State :=
  s.startCommand .pwm Instr.wake.opcode fun q => { q with op := .wake p.mode1Sleep p.mode1Restart }

/-- The program of `WAKE`. -/
def wakeProgram (slp rst : Byte) (q : Seq) : Nat → Option Action := modeProgram (wakeByte slp rst) q

/-- `WAKE`. -/
def execWake (s : State) : Host.Outcome State Fault Refusal := .next (acceptWake Config.params s)

/-- The acceptance step of `RESTART` (rule R262). -/
def acceptRestart (p : Params) (s : State) : State :=
  s.startCommand .pwm Instr.restart.opcode fun q => { q with op := .restart p.mode1Sleep p.mode1Restart }

/-- The program of `RESTART`. -/
def restartProgram (slp rst : Byte) (q : Seq) : Nat → Option Action := modeProgram (restartByte slp rst) q

/-- `RESTART`. -/
def execRestart (s : State) : Host.Outcome State Fault Refusal := .next (acceptRestart Config.params s)

end Sys2Proof.Machine
end

