-- ==== Sys2Proof/Machine/Pxa.lean ====
section
/-!
DEFINITION. CODEC, proximity/ambient family (42_codec_pxa.md): `PXTRIG`, `PXRDY`, `PXREAD`, `PXMEAS`, `PXLED` and the PXA
cycle, with the bounded ready wait (rule R171).
-/

namespace Sys2Proof.Machine

/-! ### Shared steps -/

/-- The read of register 0x80: `last_status <- rd[0]; tmp <- rd[0]` (rules R163, R170, R174). -/
def statusToTmp (rd : List Byte) (s : State) : State :=
  { s with lastStatus := byteAt rd 0 }.setTmp .pxa (byteAt rd 0)

/-- `POLL_MAX_AMB` or `POLL_MAX_PROX` (rule R161). -/
def State.pollMax (s : State) : Kind → Half
  | .amb => s.pollMaxAmb
  | .prox => s.pollMaxProx

/-- The head of the ready wait: no read is left, or the read at step `readStep` follows (rule R171 step 3). -/
def waitTest (readStep : Nat) (q : Seq) (s : State) : State :=
  if q.n = 0#16 then s.raise .pxa .timeout else s.goto .pxa readStep

/-- After the status read of the ready wait (rule R171 step 4): ready, or the budget is used up, or the delay follows. -/
def waitCheck (readyStep delayStep : Nat) (q : Seq) (rd : List Byte) (s : State) : State :=
  let left := q.n - 1#16
  let s := { s with lastStatus := byteAt rd 0 }.setSeq .pxa { s.seq.pxa with n := left }
  if isReady q.k (byteAt rd 0) then s.goto .pxa readyStep
  else if left = 0#16 then s.raise .pxa .timeout
  else s.goto .pxa delayStep

/-- The PXA publish step (rule R172). -/
def pxaPublish (p : Params) (q : Seq) (s : State) : State :=
  let raw := rawOf q.rd
  let s := s.setRes .pxa (zext16 raw) true
  match q.k with
  | .amb => s.publish (.ambientLightReceived (zext16 raw))
  | .prox => s.publish (.proximityReceived (zext16 raw) (p.proxConvert raw))

/-! ### `PXTRIG` (rule R163) -/

/-- The acceptance step of `PXTRIG k`. -/
def acceptPxtrig (k : Kind) (s : State) : State :=
  s.startCommand .pxa (Instr.pxtrig k).opcode fun q => { q with op := .pxtrig, k := k }

/-- The program of `PXTRIG`. -/
def pxtrigProgram (q : Seq) : Nat → Option Action
  | 1 => some (.bus framePxaStatus statusToTmp)
  | 2 => some (.plain (framePxaTrigger q.tmp q.k))
  | 3 => some (.retire id fun _ => 0#32)
  | _ => none

/-- `PXTRIG k`. -/
def execPxtrig (k : Kind) (s : State) : Host.Outcome State Fault Refusal := .next (acceptPxtrig k s)

/-! ### `PXRDY` (rule R165) -/

/-- The acceptance step of `PXRDY k`. -/
def acceptPxrdy (k : Kind) (s : State) : State :=
  s.startCommand .pxa (Instr.pxrdy k).opcode fun q => { q with op := .pxrdy, k := k }

/-- The program of `PXRDY`. -/
def pxrdyProgram (q : Seq) : Nat → Option Action
  | 1 => some (.bus framePxaStatus fun rd s => { s with lastStatus := byteAt rd 0 })
  | 2 => some (.retire id fun _ => bitValue (isReady q.k (byteAt q.rd 0)))
  | _ => none

/-- `PXRDY k`. -/
def execPxrdy (k : Kind) (s : State) : Host.Outcome State Fault Refusal := .next (acceptPxrdy k s)

/-! ### `PXREAD` (rule R167) -/

/-- The acceptance step of `PXREAD k`. -/
def acceptPxread (k : Kind) (s : State) : State :=
  s.startCommand .pxa (Instr.pxread k).opcode fun q => { q with op := .pxread, k := k }

/-- The program of `PXREAD`. -/
def pxreadProgram (q : Seq) : Nat → Option Action
  | 1 => some (.plain (framePxaResult q.k))
  | 2 => some (.retire (fun s => s.setRes .pxa (zext16 (rawOf q.rd)) true) fun s => s.res.pxa)
  | _ => none

/-- `PXREAD k`. -/
def execPxread (k : Kind) (s : State) : Host.Outcome State Fault Refusal := .next (acceptPxread k s)

/-! ### `PXMEAS` (rule R170) -/

/-- The acceptance step of `PXMEAS k`: the budget and the gap are latched. -/
def acceptPxmeas (k : Kind) (s : State) : State :=
  s.startCommand .pxa (Instr.pxmeas k).opcode fun q =>
    { q with op := .pxmeas s.pollGapMs, k := k, n := s.pollMax k }

/-- The program of `PXMEAS`. -/
def pxmeasProgram (p : Params) (gapMs : Half) (q : Seq) : Nat → Option Action
  | 1 => some (.bus framePxaStatus statusToTmp)
  | 2 => some (.plain (framePxaTrigger q.tmp q.k))
  | 3 => some (.internal (waitTest 4 q))
  | 4 => some (.bus framePxaStatus (waitCheck 6 5 q))
  | 5 => some (.delay gapMs 4)
  | 6 => some (.plain (framePxaResult q.k))
  | 7 => some (.internal (pxaPublish p q))
  | 8 => some (.retire id fun s => s.res.pxa)
  | _ => none

/-- `PXMEAS k`. -/
def execPxmeas (k : Kind) (s : State) : Host.Outcome State Fault Refusal := .next (acceptPxmeas k s)

/-! ### `PXLED` (rule R175) -/

/-- The acceptance step of `PXLED units`. -/
def acceptPxled (units : Nat) (s : State) : State :=
  let opcode := (Instr.pxled units).opcode
  if unitsLegal units then
    s.startCommand .pxa opcode fun q => { q with op := .pxled (BitVec.ofNat 16 units) }
  else s.respond opcode .rangeError 0#32

/-- The program of `PXLED`. -/
def pxledProgram (units : Half) : Nat → Option Action
  | 1 => some (.plain (framePxaLed units))
  | 2 => some (.retire id fun _ => 0#32)
  | _ => none

/-- `PXLED units`. -/
def execPxled (units : Nat) (s : State) : Host.Outcome State Fault Refusal := .next (acceptPxled units s)

/-! ### The PXA cycle (rule R174) -/

/-- The operation a `Tick(1)` starts, with the configuration it latches. -/
def pxaCycleOp (s : State) : Op :=
  .pxaCycle (s.pxaKinds.extractLsb' 0 2) s.pollMaxAmb s.pollMaxProx s.pollGapMs

/-- Step 1 of the cycle: ambient if enabled and not yet measured, then proximity, then the end. -/
def pxaCycleSelect (kinds : BitVec 2) (pmAmb pmProx : Half) (q : Seq) (s : State) : State :=
  if q.cursor = 0 && kinds.getLsbD 0 then
    s.setSeq .pxa { s.seq.pxa with k := .amb, n := pmAmb, cursor := 1, step := .at 2 }
  else if decide (q.cursor ≤ 1) && kinds.getLsbD 1 then
    s.setSeq .pxa { s.seq.pxa with k := .prox, n := pmProx, cursor := 2, step := .at 2 }
  else s.goto .pxa 9

/-- The program of the PXA cycle. -/
def pxaCycleProgram (p : Params) (kinds : BitVec 2) (pmAmb pmProx gapMs : Half) (q : Seq) : Nat → Option Action
  | 1 => some (.internal (pxaCycleSelect kinds pmAmb pmProx q))
  | 2 => some (.bus framePxaStatus statusToTmp)
  | 3 => some (.plain (framePxaTrigger q.tmp q.k))
  | 4 => some (.internal (waitTest 5 q))
  | 5 => some (.bus framePxaStatus (waitCheck 7 6 q))
  | 6 => some (.delay gapMs 5)
  | 7 => some (.plain (framePxaResult q.k))
  | 8 => some (.internal fun s => (pxaPublish p q s).goto .pxa 1)
  | 9 => some (.retire id fun _ => 0#32)
  | _ => none

end Sys2Proof.Machine
end

