-- ==== Sys2Proof/Machine/Usr.lean ====
section
/-!
DEFINITION. CODEC, ultrasonic family (43_codec_usr.md): `USTRIG`, `USREAD`, `USMEAS` and the USR cycle.
-/

namespace Sys2Proof.Machine

/-! ### `USTRIG` (rule R193) -/

/-- The acceptance step of `USTRIG`. -/
def acceptUstrig (s : State) : State :=
  s.startCommand .usr Instr.ustrig.opcode fun q => { q with op := .ustrig }

/-- The program of `USTRIG`. -/
def ustrigProgram : Nat → Option Action
  | 1 => some (.plain frameUsrTrigger)
  | 2 => some (.retire id fun _ => 0#32)
  | _ => none

/-- `USTRIG`. -/
def execUstrig (s : State) : Host.Outcome State Fault Refusal := .next (acceptUstrig s)

/-! ### `USREAD` (rule R194) -/

/-- The acceptance step of `USREAD`. -/
def acceptUsread (s : State) : State :=
  s.startCommand .usr Instr.usread.opcode fun q => { q with op := .usread }

/-- The program of `USREAD`. -/
def usreadProgram (q : Seq) : Nat → Option Action
  | 1 => some (.plain frameUsrResult)
  | 2 => some (.retire (fun s => s.setRes .usr (zext16 (rawOf q.rd)) true) fun s => s.res.usr)
  | _ => none

/-- `USREAD`. -/
def execUsread (s : State) : Host.Outcome State Fault Refusal := .next (acceptUsread s)

/-! ### `USMEAS` (rule R195) -/

/-- The acceptance step of `USMEAS`. -/
def acceptUsmeas (s : State) : State :=
  s.startCommand .usr Instr.usmeas.opcode fun q => { q with op := .usmeas }

/-- The USR publish step (rule R196). -/
def usrPublish (q : Seq) (s : State) : State :=
  let raw := zext16 (rawOf q.rd)
  (s.setRes .usr raw true).publish (.rangeReceived raw)

/-- The program of `USMEAS`. -/
def usmeasProgram (q : Seq) : Nat → Option Action
  | 1 => some (.plain frameUsrTrigger)
  | 2 => some (.delay usrRangeDelayMs 3)
  | 3 => some (.plain frameUsrResult)
  | 4 => some (.internal (usrPublish q))
  | 5 => some (.retire id fun s => s.res.usr)
  | _ => none

/-- `USMEAS`. -/
def execUsmeas (s : State) : Host.Outcome State Fault Refusal := .next (acceptUsmeas s)

/-! ### The USR cycle (rule R197) -/

/-- The program of the USR cycle: "the body of `USMEAS` with no response". -/
def usrCycleProgram (q : Seq) : Nat → Option Action
  | 1 => some (.plain frameUsrTrigger)
  | 2 => some (.delay usrRangeDelayMs 3)
  | 3 => some (.plain frameUsrResult)
  | 4 => some (.internal (usrPublish q))
  | 5 => some (.retire id fun _ => 0#32)
  | _ => none

end Sys2Proof.Machine
end

