-- ==== Sys2Proof/Machine/Dispatch.lean ====
section
/-!
DEFINITION. One arm per command: its acceptance step (47_poll.md rule R314 after decoding).
-/

namespace Sys2Proof.Machine

def exec (i : Instr) (s : State) : Host.Outcome State Fault Refusal :=
  match i with
  | .cfgw reg val => Sys2Proof.Machine.execCfgw reg val s
  | .cfgr reg => Sys2Proof.Machine.execCfgr reg s
  | .start slot interval => Sys2Proof.Machine.execStart slot interval s
  | .stop slot => Sys2Proof.Machine.execStop slot s
  | .adtrig b => Sys2Proof.Machine.execAdtrig b s
  | .adread => Sys2Proof.Machine.execAdread s
  | .admeas b => Sys2Proof.Machine.execAdmeas b s
  | .pxtrig k => Sys2Proof.Machine.execPxtrig k s
  | .pxrdy k => Sys2Proof.Machine.execPxrdy k s
  | .pxread k => Sys2Proof.Machine.execPxread k s
  | .pxmeas k => Sys2Proof.Machine.execPxmeas k s
  | .pxled units => Sys2Proof.Machine.execPxled units s
  | .ustrig => Sys2Proof.Machine.execUstrig s
  | .usread => Sys2Proof.Machine.execUsread s
  | .usmeas => Sys2Proof.Machine.execUsmeas s
  | .crcv data crc quirk strict => Sys2Proof.Machine.execCrcv data crc quirk strict s
  | .setfreq hz => Sys2Proof.Machine.execSetfreq hz s
  | .setpwm ch on off => Sys2Proof.Machine.execSetpwm ch on off s
  | .fullon ch => Sys2Proof.Machine.execFullon ch s
  | .fulloff ch => Sys2Proof.Machine.execFulloff ch s
  | .setduty ch pct => Sys2Proof.Machine.execSetduty ch pct s
  | .sleep => Sys2Proof.Machine.execSleep s
  | .wake => Sys2Proof.Machine.execWake s
  | .restart => Sys2Proof.Machine.execRestart s

end Sys2Proof.Machine
end

