-- ==== Sys2Proof/Machine/Sequencer.lean ====
section
/-!
DEFINITION. The sequencers (10_state.md rules R33 to R35): the program of each operation, and one micro-step of one slot.
-/

namespace Sys2Proof.Machine

/-- The slot whose sequencer runs an operation (47_poll.md rule R314 step 4). -/
def Op.slot : Op → Option Slot
  | .idle => none
  | .adtrig _ | .adread | .admeas _ _ _ | .adcCycle _ _ _ => some .adc
  | .pxtrig | .pxrdy | .pxread | .pxmeas _ | .pxaCycle _ _ _ _ | .pxled _ => some .pxa
  | .ustrig | .usread | .usmeas | .usrCycle => some .usr
  | .setfreq _ _ _ | .setpwm _ _ _ | .fullon _ _ _ | .fulloff _ _ _ | .setduty _ _ _ => some .pwm
  | .sleep _ _ | .wake _ _ | .restart _ _ => some .pwm

/-- The action at step `k` of the program of the operation that `q` holds (files 41 to 45 of the spec). -/
def programOf (p : Params) (q : Seq) : Nat → Option Action :=
  match q.op with
  | .idle => fun _ => none
  | .adtrig cfg => adtrigProgram p cfg q
  | .adread => adreadProgram q
  | .admeas cfg delayMs address => admeasProgram p cfg delayMs address q
  | .adcCycle mask delayMs address => adcCycleProgram p mask delayMs address q
  | .pxtrig => pxtrigProgram q
  | .pxrdy => pxrdyProgram q
  | .pxread => pxreadProgram q
  | .pxmeas gapMs => pxmeasProgram p gapMs q
  | .pxaCycle kinds pmAmb pmProx gapMs => pxaCycleProgram p kinds pmAmb pmProx gapMs q
  | .pxled units => pxledProgram units
  | .ustrig => ustrigProgram
  | .usread => usreadProgram q
  | .usmeas => usmeasProgram q
  | .usrCycle => usrCycleProgram q
  | .setfreq v slp rst => setfreqProgram v slp rst q
  | .setpwm base on off => setpwmProgram base on off
  | .fullon base on off => fullonProgram base on off
  | .fulloff base on off => fulloffProgram base on off
  | .setduty base on off => setdutyProgram base on off
  | .sleep slp rst => sleepProgram slp rst q
  | .wake slp rst => wakeProgram slp rst q
  | .restart slp rst => restartProgram slp rst q

/-- One micro-step of slot `d`, the bus answering `ans` (10_state.md rule R34). It is enabled when `guard[d] = 1`; a slot
whose guard is clear takes none and nothing changes (log entry 10). -/
def microStep (p : Params) (d : Slot) (ans : BusAnswer) (s : State) : Host.Outcome State Fault Refusal :=
  let q := s.seq.get d
  if s.guard.get d = false then .next s
  else if q.op.slot ≠ some d then .fault (.operationOfAnotherSlot d)
  else match q.step with
    | .failExit =>
      match q.exc with
      | .none => .fault (.noPendingException d)
      | .busError => .next (s.failExit d .busError .busError 0#32)
      | .timeout => .next (s.failExit d .timeout .timeout absentReading)
    | .at k =>
      match programOf p q k with
      | none => .fault (.noSuchMicroStep d)
      | some action => .next (s.perform d k ans action)

end Sys2Proof.Machine
end

