-- ==== Sys2Proof/Machine/Inputs.lean ====
section
/-!
DEFINITION. The inputs of the block, each handled in one atomic step (60_exceptions.md rules R373, R374): a command frame
(47_poll.md rule R314), a tick (rules R320, R321), a micro-step of one sequencer (10_state.md rule R34), a reset
(70_reset_and_hazards.md rule R400).
-/

namespace Sys2Proof.Machine

/-- `Cmd(f)` (47_poll.md rule R314 step 1; 30_encoding.md rule R111): a frame that is no command is answered `ILLEGAL`, with
its byte 0, and nothing else happens; a command takes its acceptance step. -/
def acceptFrame (f : Frame) (s : State) : Host.Outcome State Fault Refusal :=
  match decode f with
  | .ok i => exec i s
  | .error _ => .next (s.respond (opcodeOf f) .illegal 0#32)

/-- The operation that `Tick(d)` starts, with the configuration its program names (47_poll.md rule R321). -/
def cycleOp (p : Params) (d : Sensor) (s : State) : Op :=
  match d with
  | .adc => adcCycleOp p s
  | .pxa => pxaCycleOp s
  | .usr => .usrCycle

/-- `skip_count[d] <- min(skip_count[d] + 1, 65535)` (47_poll.md rule R321). -/
def State.countSkip (s : State) (d : Sensor) : State :=
  { s with skipCount := s.skipCount.set d (saturatingSucc (s.skipCount.get d)) }

/-- `Tick(d)` (47_poll.md rules R320, R321): nothing while the timer is off; skipped and counted while the guard is set;
otherwise the guard is set and the slot's cycle starts. -/
def tickStep (p : Params) (d : Sensor) (s : State) : State :=
  if s.timerEn.get d = false then s
  else if s.guard.get d.slot then s.countSkip d
  else s.beginCycle d.slot (cycleOp p d s)

/-- `Reset` (70_reset_and_hazards.md rules R400, R401): every piece of state at its reset value, the trace afresh; what the
environment has presented and not yet had taken stays presented (log entry 12). -/
def resetStep (p : Params) (s : State) : State := { State.resetWith p with inputs := s.inputs, turn := s.turn }

/-- One input, handled in one atomic step. -/
def deliver (i : Input) (s : State) : Host.Outcome State Fault Refusal :=
  match i with
  | .cmd f => acceptFrame f s
  | .tick d => .next (tickStep Config.params d s)
  | .micro d ans => microStep Config.params d ans s
  | .reset => .next (resetStep Config.params s)

/-- A list of inputs, one after the other, stopping at the first fault or refusal. -/
def deliverAll : List Input → State → Host.Outcome State Fault Refusal
  | [], s => .next s
  | i :: rest, s =>
    match deliver i s with
    | .next s' => deliverAll rest s'
    | .fault r => .fault r
    | .refused r => .refused r

/-- The next input and the state without it: the oldest of those presented; once State lists none, a free one (log
entry 1). -/
def takeInput (s : State) : Input × State :=
  match s.inputs with
  | i :: rest => (i, { s with inputs := rest })
  | [] => (Config.schedule s.turn, { s with turn := s.turn + 1 })

/-- The frame `f` presented at the CMD port before everything else (10_state.md rule R43). -/
def presentFrame (f : Frame) (s : State) : State := { s with inputs := .cmd f :: s.inputs }

end Sys2Proof.Machine
end

