-- ==== Sys2Proof/Machine/Step.lean ====
section
/-!
DEFINITION. One step of the block: it takes the next input of the environment and handles it (60_exceptions.md rule R374).
-/

namespace Sys2Proof.Machine

/-- One atomic step. -/
def step (s : State) : Host.Outcome State Fault Refusal := deliver (takeInput s).1 (takeInput s).2

/-- `s` with the command frame of the opcode table's bits `w` presented as the next input (10_state.md rule R43; log entry
2): the very next step takes it. -/
def State.withFetchWord (s : State) (nbits w : Nat) : State := presentFrame (frameOfTable nbits w) s

end Sys2Proof.Machine
end

