-- ==== Sys2Proof/Machine/Sweep.lean ====
section
/-!
DEFINITION. The sweep host of 46_sweep_host.md, a reference model of the software that drives the block. Every rule of that
file is marked HOST: none of this is state or behaviour of the block, and the machine does not use this file (00_scope.md rule
R6; log entry 16).
-/

namespace Sys2Proof.Machine

/-! ### State and parameters (rules R280, R281) -/

/-- The control states of rule R280. -/
inductive SweepPhase
  | idle
  | sweeping
  | stopped
  deriving DecidableEq, Repr

/-- `direction` (rule R280). -/
inductive SweepDirection
  | incrementing
  | decrementing
  deriving DecidableEq, Repr

/-- `SWEEP_SENSOR`: USR or the proximity kind of PXA (rule R281). -/
inductive SweepSensor
  | usr
  | pxaProximity
  deriving DecidableEq, Repr

/-- `SWEEP_ANGLE_FROM` (rules R281, R286). -/
inductive AngleFrom
  | new
  | old
  deriving DecidableEq, Repr

/-- The parameters of the host (rule R281), and the two that driving the block takes (rule R292): `hz`, the frequency of the
`SETFREQ`, "a host parameter D0 does not give", and `interval`, of the `START`. -/
structure SweepParams where
  minServo : Int
  maxServo : Int
  channel : Nat
  settleMs : Nat
  sensor : SweepSensor
  angleFrom : AngleFrom
  hz : Nat
  interval : Nat
  deriving DecidableEq, Repr

/-- The preconditions of rule R281, with the range of `SWEEP_CH`. -/
def SweepParams.legal (c : SweepParams) : Bool :=
  decide (0 ≤ c.minServo) && decide (c.maxServo ≤ pwmCountMax) && decide (36 ≤ c.maxServo - c.minServo) &&
    decide (c.channel < pwmNchan)

/-- A reading of the range sensor (rule R285). -/
structure SweepReading where
  distance : Distance
  rawValue : Word
  deriving DecidableEq, Repr

/-- A `SETPWM` of the host that the block has not answered: the positioning of `start()` (rule R284), which commits nothing, or an
advance to a position (rule R285). -/
inductive SweepCommand
  | positioning
  | advance (next : Int)
  deriving DecidableEq, Repr

/-- The state of the host (rule R280), and two fields that hold where the host stands inside `start()` and `onReading`, which wait:
`settling` while the settle delay of `start()` runs, and `unanswered`, the `SETPWM` commands issued and not answered, oldest first
(the responses of a slot come in the order of its commands, 10_state.md rule R44). -/
structure Sweep where
  phase : SweepPhase
  currentPosition : Int
  direction : SweepDirection
  lastReading : Option SweepReading
  stopped : Bool
  settling : Bool
  unanswered : List SweepCommand
  deriving DecidableEq, Repr

/-- The host before `start()`: `Idle` (rules R280, R284), nothing read and nothing issued. DESIGN CHOICE, unsafe (log entry 20): the
spec gives the position and the direction no value before `start()`; the position is the lower bound, so that "at all times" of the
invariant of rule R280 holds, and the direction that of `start()`. -/
def Sweep.initial (c : SweepParams) : Sweep :=
  { phase := .idle, currentPosition := c.minServo, direction := .incrementing, lastReading := none, stopped := false,
    settling := false, unanswered := [] }

/-- What the host does outward: issue a command to the block, wait, publish on its own event stream. -/
inductive SweepAction
  | issue (i : Instr)
  | wait (ms : Nat)
  | publish (e : Event)
  deriving DecidableEq, Repr

/-! ### Formulas -/

/-- `stepSize = (max - min) div 36` (rule R282). -/
def SweepParams.stepSize (c : SweepParams) : Int := (c.maxServo - c.minServo) / 36

/-- `angle(p) = (360 * (p - min) + (max - min)) div (2 * (max - min))` (rule R283). -/
def SweepParams.angle (c : SweepParams) (position : Int) : Int :=
  (360 * (position - c.minServo) + (c.maxServo - c.minServo)) / (2 * (c.maxServo - c.minServo))

/-- The command for a position: `SETPWM SWEEP_CH, 0, position` (rules R284, R285). -/
def SweepParams.command (c : SweepParams) (position : Int) : Instr := .setpwm c.channel 0 position.toNat

/-- The next position: one step in the current direction, clamped (rule R285). -/
def Sweep.nextPosition (c : SweepParams) (h : Sweep) : Int :=
  match h.direction with
  | .incrementing => min (h.currentPosition + c.stepSize) c.maxServo
  | .decrementing => max (h.currentPosition - c.stepSize) c.minServo

/-- The direction after a position is reached: it flips when the position equals a bound (rule R285). -/
def SweepParams.directionAt (c : SweepParams) (position : Int) (before : SweepDirection) : SweepDirection :=
  if position = c.maxServo then .decrementing else if position = c.minServo then .incrementing else before

/-! ### Transitions -/

/-- `start()` up to its wait (rule R284): everything at its start, the positioning issued, the settle delay running; the state is
`Sweeping` only when the delay ends (`Sweep.onSettled`). DESIGN CHOICE, unsafe (log entry 20): the state during the delay is `Idle`,
also where `start()` is called again; an advance that is then unanswered is given up, and its response commits nothing. -/
def Sweep.start (c : SweepParams) (h : Sweep) : Sweep × List SweepAction :=
  ({ phase := .idle, currentPosition := c.minServo, direction := .incrementing, lastReading := none, stopped := false,
     settling := true, unanswered := h.unanswered.map (fun _ => .positioning) ++ [.positioning] },
   [.issue (c.command c.minServo), .wait c.settleMs])

/-- The settle delay of `start()` ends: `state <- Sweeping` (rule R284). DESIGN CHOICE, unsafe (log entry 20): after a `stop()` within
the delay the state stays `Stopped`, the terminal state of rule R290; and where `start()` is called again while a delay runs, of which
rule R284 says nothing, the first delay that ends begins the sweep, the older one's too, and the end of the other does nothing. -/
def Sweep.onSettled (h : Sweep) : Sweep × List SweepAction :=
  if h.settling = false then (h, [])
  else ({ h with settling := false, phase := if h.stopped then h.phase else .sweeping }, [])

/-- The reading in a data event of `SWEEP_SENSOR` (rule R285): the `distance` field of `ProximityReceived`, or the raw value of
`RangeReceived`. -/
def SweepParams.readingOf (c : SweepParams) : Event → Option SweepReading
  | .proximityReceived raw distance => if c.sensor = .pxaProximity then some ⟨distance, raw⟩ else none
  | .rangeReceived raw => if c.sensor = .usr then some ⟨raw.toInt, raw⟩ else none
  | _ => none

/-- `onReading(r)` up to the `SETPWM` it issues (rules R285, R287). A reading that comes while a `SETPWM` is unanswered is ignored, so
that none races a servo write; the positioning of `start()` counts as one (DESIGN CHOICE, unsafe, log entry 20). -/
def Sweep.onReading (c : SweepParams) (r : SweepReading) (h : Sweep) : Sweep × List SweepAction :=
  if h.stopped = true ∨ h.phase ≠ .sweeping then (h, [])
  else if r.rawValue = absentReading then (h, [])
  else if h.unanswered ≠ [] then (h, [])
  else
    let next := h.nextPosition c
    ({ h with lastReading := some r, unanswered := [.advance next] }, [.issue (c.command next)])

/-- An event of the block: a reading of the sensor, or nothing to the host (rules R285, R292). -/
def Sweep.onEvent (c : SweepParams) (e : Event) (h : Sweep) : Sweep × List SweepAction :=
  match c.readingOf e with
  | some r => h.onReading c r
  | none => (h, [])

/-- The failure of a `SETPWM` as the host publishes it (rule R288). -/
def sweepFailure : SweepAction := .publish (.sensorException .busError Slot.pwm.code)

/-- An advance answered `OK`: the position is committed and `PositionFound` published, with the reading's distance (rules R285,
R286). -/
def Sweep.commit (c : SweepParams) (next : Int) (h : Sweep) : Sweep × List SweepAction :=
  let angle := match c.angleFrom with
    | .new => c.angle next
    | .old => c.angle h.currentPosition
  ({ h with currentPosition := next, direction := c.directionAt next h.direction },
   match h.lastReading with
   | some r => [.publish (.positionFound angle r.distance r.rawValue)]
   | none => [])

/-- The response to the oldest unanswered `SETPWM` (rules R285, R288): an advance is committed on `OK`; otherwise nothing is
committed and the host publishes the exception; the reading is discarded either way. After `stop()` nothing is committed: "no further
position changes occur" (rule R290).
DESIGN CHOICE, unsafe (log entry 21), on two points. The response to the positioning of `start()` is treated the same: "any exception
while setting position" is published, and nothing is committed. Of an advance in flight when `stop()` is called, which rule R285 would
commit, having checked the flag at the top of the callback only, an `OK` is dropped, with no `PositionFound`; a failure is published. -/
def Sweep.onResponse (c : SweepParams) (status : Status) (h : Sweep) : Sweep × List SweepAction :=
  match h.unanswered with
  | [] => (h, [])
  | .positioning :: rest =>
    ({ h with unanswered := rest }, if status = .ok then [] else [sweepFailure])
  | .advance next :: rest =>
    let done := if status ≠ .ok then (h, [sweepFailure]) else if h.stopped then (h, []) else h.commit c next
    ({ done.1 with lastReading := none, unanswered := rest }, done.2)

/-- `stop()` (rule R290). -/
def Sweep.stop (h : Sweep) : Sweep × List SweepAction := ({ h with phase := .stopped, stopped := true }, [])

/-! ### Runs -/

/-- What can happen to the host: `start()`, the end of its settle delay, an event of the block, the response to its oldest
unanswered `SETPWM`, `stop()`. -/
inductive SweepInput
  | start
  | settled
  | event (e : Event)
  | response (status : Status)
  | stop
  deriving DecidableEq, Repr

/-- One transition of the host. -/
def Sweep.handle (c : SweepParams) (i : SweepInput) (h : Sweep) : Sweep × List SweepAction :=
  match i with
  | .start => h.start c
  | .settled => h.onSettled
  | .event e => h.onEvent c e
  | .response status => h.onResponse c status
  | .stop => h.stop

/-- The invariant of rule R291: the position, and every position that an unanswered advance commands, lie within the bounds. -/
def Sweep.inBounds (c : SweepParams) (h : Sweep) : Bool :=
  decide (c.minServo ≤ h.currentPosition) && decide (h.currentPosition ≤ c.maxServo) &&
    h.unanswered.all fun
      | .advance next => decide (c.minServo ≤ next) && decide (next ≤ c.maxServo)
      | .positioning => true

/-! ### Driving the block with the ultrasonic sensor (rule R292) -/

/-- How far the host is in the sequence of rule R292: nothing issued, `SETFREQ` issued, `start()` called, `START USR` issued. -/
inductive DriveStage
  | before
  | tuning
  | starting
  | running
  deriving DecidableEq, Repr

/-- A host that drives the block: its place in the sequence of rule R292, and its sweep. -/
structure SweepDrive where
  stage : DriveStage
  sweep : Sweep
  deriving DecidableEq, Repr

/-- What can happen to a driving host: it begins, its `SETFREQ` is answered, or something happens to its sweep. -/
inductive DriveInput
  | begin
  | tuned (status : Status)
  | sweep (i : SweepInput)
  deriving DecidableEq, Repr

/-- The driving host before it begins. -/
def SweepDrive.initial (c : SweepParams) : SweepDrive := { stage := .before, sweep := Sweep.initial c }

/-- One transition of the driving host (rule R292): `SETFREQ hz`; `start()`; `START USR, interval` when `start()` has run to its
`Sweeping` (95_test_vectors.md program P4); then it reacts to each `RangeReceived`, and `SensorException` does not stop it. A `stop()`
before the sequence has called `start()` ends the sequence: the answer of `SETFREQ` starts nothing (rule R290).
DESIGN CHOICE, safe for the block (log entry 22): it calls `start()` when `SETFREQ` is answered, whatever the answer, since a
`SETPWM` before it would be `BUSY`; rule R292 gives the order of the commands only. A `start()` called by its user before `SETFREQ` is
answered, of which rule R292 says nothing, reaches the sweep at once, so that it issues its `SETPWM` before or beside the `SETFREQ`. A
`stop()` before the sequence begins does not keep it from beginning. Once the sequence has begun and not been ended so, it is not begun
again; where it was ended so and has begun again before the first `SETFREQ` is answered, the first answer to come calls `start()`, that
to the abandoned `SETFREQ` too; and after `START USR` a host stopped and started again only sweeps again: neither
`SETFREQ` nor `START USR` is repeated. -/
def SweepDrive.handle (c : SweepParams) (i : DriveInput) (h : SweepDrive) : SweepDrive × List SweepAction :=
  match i, h.stage with
  | .begin, .before => ({ h with stage := .tuning }, [.issue (.setfreq c.hz)])
  | .begin, _ => (h, [])
  | .tuned _, .tuning =>
    let started := h.sweep.start c
    ({ stage := .starting, sweep := started.1 }, started.2)
  | .tuned _, _ => (h, [])
  | .sweep .stop, .tuning =>
    let stopped := h.sweep.stop
    ({ stage := .before, sweep := stopped.1 }, stopped.2)
  | .sweep j, .starting =>
    let moved := h.sweep.handle c j
    if moved.1.phase = .sweeping then
      ({ stage := .running, sweep := moved.1 }, moved.2 ++ [.issue (.start .usr c.interval)])
    else ({ h with sweep := moved.1 }, moved.2)
  | .sweep j, _ =>
    let moved := h.sweep.handle c j
    ({ h with sweep := moved.1 }, moved.2)

end Sys2Proof.Machine
end

