-- ==== Sys2Proof/Safety.lean ====
section
/-!
DEFINITION. What a safe run is, in the terms the statements use: the invariant of every reachable state (47_poll.md rule R328),
the closed table of wire frames (30_encoding.md rule R120), the refusals of acceptance (rule R314), the bound on an operation
(rule R326), and the shapes of an accepted and of an ended operation.
-/

namespace Sys2Proof.Machine

/-! ### Legal sequencer contents -/

/-- The number of micro-steps of the program of an operation (files 41 to 45 of the spec). -/
def Op.length : Op → Nat
  | .idle => 0
  | .adtrig _ => 2
  | .adread => 2
  | .admeas _ _ _ => 5
  | .adcCycle _ _ _ => 6
  | .pxtrig => 3
  | .pxrdy => 2
  | .pxread => 2
  | .pxmeas _ => 8
  | .pxaCycle _ _ _ _ => 9
  | .pxled _ => 2
  | .ustrig => 2
  | .usread => 2
  | .usmeas => 5
  | .usrCycle => 5
  | .setfreq _ _ _ => 11
  | .setpwm _ _ _ => 5
  | .fullon _ _ _ => 5
  | .fulloff _ _ _ => 5
  | .setduty _ _ _ => 5
  | .sleep _ _ => 4
  | .wake _ _ => 4
  | .restart _ _ => 4

/-- The channel in `q` is supported, and its config word is `cfg` (41_codec_adc.md rules R141, R142). -/
def AdcArgsOk (p : Params) (cfg : Half) (q : Seq) : Prop := q.ch.toNat < p.adcNchan ∧ cfg = cfgWord p q.ch.toNat

/-- The tick operands of a channel write (45_pwm.md rules R240, R241). -/
def TickArgsOk (base : Byte) (on off : Half) : Prop :=
  (∃ ch, ch < pwmNchan ∧ base = channelBase ch) ∧ on.toNat ≤ pwmSteps ∧ off.toNat ≤ pwmSteps

/-- The mode masks are the block's (45_pwm.md rule R259). -/
def MaskArgsOk (p : Params) (slp rst : Byte) : Prop := slp = p.mode1Sleep ∧ rst = p.mode1Restart

/-- The values an operation latched are those its acceptance latches, and the loop counters are in range. -/
def ArgsOk (p : Params) (q : Seq) : Prop :=
  match q.op with
  | .adtrig cfg => AdcArgsOk p cfg q
  | .admeas cfg delayMs address => AdcArgsOk p cfg q ∧ delayMs = p.adcConvDelayMs ∧ address = p.slave .adc
  | .adcCycle _ delayMs address =>
    q.cursor ≤ 8 ∧ delayMs = p.adcConvDelayMs ∧ address = p.slave .adc ∧
      (q.step ≠ .at 1 → q.step ≠ .at 6 → q.ch.toNat < p.adcNchan)
  | .pxmeas _ => q.step = .at 4 ∨ q.step = .at 5 → q.n ≠ 0#16
  | .pxaCycle _ _ _ _ => q.step = .at 5 ∨ q.step = .at 6 → q.n ≠ 0#16
  | .pxled units => units.toNat ≤ 20
  | .setfreq v slp rst => (∃ hz, hzLegal hz = true ∧ v = BitVec.ofNat 8 (prescale hz)) ∧ MaskArgsOk p slp rst
  | .setpwm base on off => TickArgsOk base on off
  | .fullon base on off => TickArgsOk base on off
  | .fulloff base on off => TickArgsOk base on off
  | .setduty base on off => TickArgsOk base on off
  | .sleep slp rst => MaskArgsOk p slp rst
  | .wake slp rst => MaskArgsOk p slp rst
  | .restart slp rst => MaskArgsOk p slp rst
  | _ => True

/-- The position of a running operation: within its program with no exception pending, or at the fail-exit with one; `Timeout`
is pending in slot 1 only (60_exceptions.md rules R362, R364). -/
def PositionOk (d : Slot) (q : Seq) : Prop :=
  match q.step with
  | .at k => 1 ≤ k ∧ k ≤ q.op.length ∧ q.exc = .none
  | .failExit => q.exc ≠ .none ∧ (q.exc = .timeout → d = .pxa)

/-- What a running sequencer of slot `d` holds. -/
structure SeqOk (p : Params) (d : Slot) (q : Seq) : Prop where
  own_slot : q.op.slot = some d
  position : PositionOk d q
  args : ArgsOk p q

/-! ### The invariant (47_poll.md rule R328) -/

/-- The invariant of every reachable state: I1, I2 and I5 of rule R328, the must-be-zero bits of the configuration registers
(10_state.md rule R40), and the legal contents of the running sequencers. -/
structure Inv (p : Params) (s : State) : Prop where
  /-- I1 -/
  guard_iff_running : ∀ d, s.guard.get d = true ↔ (s.seq.get d).op ≠ .idle
  /-- I2 -/
  stopped_timer_off : ∀ d : Sensor, s.stopped.get d.slot = true → s.timerEn.get d = false
  /-- I5 -/
  res_legal : ∀ d, (s.res.get d).toNat ≤ 65535 ∨ s.res.get d = absentReading
  /-- I5 -/
  absent_not_valid : ∀ d, s.res.get d = absentReading → s.resValid.get d = false
  chmask_legal : s.adcChmask.toNat < 256
  kinds_legal : s.pxaKinds.toNat < 4
  seq_ok : ∀ d, (s.seq.get d).op ≠ .idle → SeqOk p d (s.seq.get d)

/-! ### The wire table (30_encoding.md rule R120) -/

/-- The rows F1 to F16 of rule R120, written out: "no operation of this spec issues a transaction that is not a row of it". -/
def WireRow (p : Params) : Slot → BusOp → Prop
  | .adc, op =>
    (∃ ch, ch < p.adcNchan ∧ op = .write [p.adcCfgPtr, hi8 (cfgWord p ch), lo8 (cfgWord p ch)]) ∨
    op = .writeThenRead [0x00#8] 2
  | .pxa, op =>
    op = .writeThenRead [0x80#8] 1 ∨
    (∃ tmp, op = .write [0x80#8, tmp ||| 0x08#8] ∨ op = .write [0x80#8, tmp ||| 0x10#8]) ∨
    (∃ units, units ≤ 20 ∧ op = .write [0x83#8, BitVec.ofNat 8 units]) ∨
    op = .writeThenRead [0x85#8] 2 ∨
    op = .writeThenRead [0x87#8] 2
  | .usr, op => op = .write [0x00#8, 0x51#8] ∨ op = .writeThenRead [0x02#8] 2
  | .pwm, op =>
    op = .writeThenRead [0x00#8] 1 ∨
    (∃ tmp, op = .write [0x00#8, sleepByte p.mode1Sleep p.mode1Restart tmp] ∨
      op = .write [0x00#8, wakeByte p.mode1Sleep p.mode1Restart tmp] ∨
      op = .write [0x00#8, restartByte p.mode1Sleep p.mode1Restart tmp]) ∨
    (∃ hz, 24 ≤ hz ∧ hz ≤ 1526 ∧ op = .write [0xFE#8, BitVec.ofNat 8 (prescale hz)]) ∨
    (∃ ch v, ch < 16 ∧ v ≤ 4096 ∧
      (op = .write [BitVec.ofNat 8 (0x06 + 4 * ch), BitVec.ofNat 8 v] ∨
       op = .write [BitVec.ofNat 8 (0x07 + 4 * ch), BitVec.ofNat 8 (v / 256)] ∨
       op = .write [BitVec.ofNat 8 (0x08 + 4 * ch), BitVec.ofNat 8 v] ∨
       op = .write [BitVec.ofNat 8 (0x09 + 4 * ch), BitVec.ofNat 8 (v / 256)]))

/-- The entry is a bus transaction of slot `d`. -/
def TraceEntry.isBusOf (d : Slot) : TraceEntry → Bool
  | .bus e _ _ => e == d
  | _ => false

/-- The entry is a response. -/
def TraceEntry.isRsp : TraceEntry → Bool
  | .rsp _ => true
  | _ => false

/-! ### Acceptance (47_poll.md rule R314) -/

/-- The slot of a command that uses one (rule R314 step 4); `none` for the five immediate commands (rule R312). -/
def commandSlot : Instr → Option Slot
  | .cfgw _ _ | .cfgr _ | .start _ _ | .stop _ | .crcv _ _ _ _ => none
  | .adtrig _ | .adread | .admeas _ => some .adc
  | .pxtrig _ | .pxrdy _ | .pxread _ | .pxmeas _ | .pxled _ => some .pxa
  | .ustrig | .usread | .usmeas => some .usr
  | .setfreq _ | .setpwm _ _ _ | .fullon _ | .fulloff _ | .setduty _ _ | .sleep | .wake | .restart => some .pwm

/-- The operand checks of the commands that use a slot (rule R314 step 2, 60_exceptions.md rule R365). -/
def operandRefusal (p : Params) : Instr → Option Status
  | .adtrig b => if p.adcNchan ≤ b then some .absent else none
  | .admeas b => if p.adcNchan ≤ b then some .absent else none
  | .pxled units => if 20 < units then some .rangeError else none
  | .setfreq hz => if hz < 24 ∨ 1526 < hz then some .rangeError else none
  | .setpwm _ on off => if 4096 < on ∨ 4096 < off then some .rangeError else none
  | .setduty _ pct => if pct < 0 ∨ 100 < pct then some .ignored else none
  | _ => none

/-! ### The reset values (10_state.md rule R48) -/

/-- Every piece of state at its value in the table of rule R48, and the trace afresh (70_reset_and_hazards.md rule R401). -/
structure ResetValues (p : Params) (s : State) : Prop where
  guard : ∀ d, s.guard.get d = false
  seq_idle : ∀ d, (s.seq.get d).op = .idle ∧ (s.seq.get d).exc = .none
  timerEn : ∀ d, s.timerEn.get d = false
  stopped : ∀ d, s.stopped.get d = false
  interval : ∀ d, s.interval.get d = 0#16
  res : ∀ d, s.res.get d = 0#32
  resValid : ∀ d, s.resValid.get d = false
  lastStatus : s.lastStatus = 0x00#8
  adcCurCh : s.adcCurCh = 0x00#8
  crcOk : s.crcOk = false
  skipCount : ∀ d, s.skipCount.get d = 0#16
  pwmErrcnt : s.pwmErrcnt = 0#16
  adcChmask : s.adcChmask = 0x0000#16
  pxaKinds : s.pxaKinds = 0x0000#16
  pollMaxAmb : s.pollMaxAmb = p.pollMaxReset
  pollMaxProx : s.pollMaxProx = p.pollMaxReset
  pollGapMs : s.pollGapMs = p.pollGapReset
  trace : s.trace = []

/-! ### Entries of the trace -/

/-- A write that the bus answered with `Ok`. -/
def wrote (d : Slot) (bytes : List Byte) : TraceEntry := .bus d (.write bytes) (some [])

/-- A register read that the bus answered with these bytes. -/
def readBack (d : Slot) (register : Byte) (bytes : List Byte) : TraceEntry :=
  .bus d (.writeThenRead [register] bytes.length) (some bytes)

/-- A transaction that the bus answered with `Fail`. -/
def failed (d : Slot) (op : BusOp) : TraceEntry := .bus d op none

/-- A bus entry with `Fail` for its answer; any other entry as it is. -/
def TraceEntry.asFailed : TraceEntry → TraceEntry
  | .bus d op _ => .bus d op none
  | e => e

/-- The response to a command. -/
def answered (opcode : Byte) (status : Status) (value : Word) : TraceEntry :=
  .rsp { opcode := opcode, status := status, value := value }

/-- The raw value of a 2-byte read, high byte first: `(hi << 8) OR lo` (00_scope.md rule R13; 20_memory.md rule R67). -/
def rawReading (hi lo : Byte) : Half := (hi.setWidth 16 <<< 8) ||| lo.setWidth 16

/-- That value zero-extended, as a result register holds it (30_encoding.md rule R122). -/
def reading (hi lo : Byte) : Word := (rawReading hi lo).setWidth 32

/-- `s` with these entries appended to the trace. -/
def State.logged (s : State) (es : List TraceEntry) : State := { s with trace := s.trace ++ es }

/-! ### Shapes of statements -/

/-- Slot `d` accepts a command: neither stopped nor busy (rule R314 steps 4 and 5). -/
def Free (d : Slot) (s : State) : Prop := s.stopped.get d = false ∧ s.guard.get d = false

/-- `t` is `s` with the guard of slot `d` set and its sequencer at step 1 of `op`, started by the command of this opcode; `more`
says what else the command's rule latches (rule R314 step 6). The fields no rule names are left open. -/
def Started (d : Slot) (opcode : Byte) (op : Op) (more : Seq → Prop) (s t : State) : Prop :=
  ∃ q, q.op = op ∧ q.origin = .cmd ∧ q.opcode = opcode ∧ q.step = .at 1 ∧ q.exc = .none ∧ more q ∧
    t = (s.setGuard d true).setSeq d q

/-- `t` is `s` with the guard of slot `d` set and its sequencer at step 1 of the cycle `op`, started by a tick (rule R321). -/
def StartedByTick (d : Slot) (op : Op) (s t : State) : Prop :=
  ∃ q, q.op = op ∧ q.origin = .tick ∧ q.step = .at 1 ∧ q.cursor = 0 ∧ q.exc = .none ∧
    t = (s.setGuard d true).setSeq d q

/-- `t` is `s` but for the sequencer of slot `d`, which is idle (its other fields are unspecified, 10_state.md rule R48). -/
def EndsAs (d : Slot) (s t : State) : Prop := ∃ q, q.op = .idle ∧ t = s.setSeq d q

/-- The inputs that give slot `d` one micro-step for each answer. -/
def microSteps (d : Slot) (answers : List BusAnswer) : List Input := answers.map fun a => .micro d a

/-- From `t`, one micro-step of slot `d` for each answer ends the operation, and leaves `final`. -/
def RunsTo (d : Slot) (answers : List BusAnswer) (t final : State) : Prop :=
  ∃ u, deliverAll (microSteps d answers) t = .next u ∧ EndsAs d final u

/-- `min(c + 1, 65535)`, in numbers (45_pwm.md rule R231; 47_poll.md rule R321). -/
def raisedByOne (c : Half) : Half := BitVec.ofNat 16 (min (c.toNat + 1) 65535)

/-! ### The channel writes of slot 3 -/

/-- F13 to F16: the four transactions of a channel write, in order (45_pwm.md rule R241; 30_encoding.md rules R120, R121). -/
def tickFrames (ch on off : Nat) : List BusOp :=
  [ .write [BitVec.ofNat 8 (0x06 + 4 * ch), BitVec.ofNat 8 (on % 256)],
    .write [BitVec.ofNat 8 (0x07 + 4 * ch), BitVec.ofNat 8 (on / 256)],
    .write [BitVec.ofNat 8 (0x08 + 4 * ch), BitVec.ofNat 8 (off % 256)],
    .write [BitVec.ofNat 8 (0x09 + 4 * ch), BitVec.ofNat 8 (off / 256)] ]

/-- From `t`, the four writes and the response with `value` end the operation; a failure at the j-th write ends it there, is
counted and answered (rules R241, R231). -/
def WritesTicks (opcode : Byte) (ch on off : Nat) (value : Word) (s t : State) : Prop :=
  ∀ a : BusAnswer,
    RunsTo .pwm [.ok [], .ok [], .ok [], .ok [], a] t
      (s.logged ((tickFrames ch on off).map (fun op => .bus .pwm op (some [])) ++ [answered opcode .ok value])) ∧
    ∀ j, j < 4 → RunsTo .pwm (List.replicate j (.ok []) ++ [.fail, a]) t
      (State.logged { s with pwmErrcnt := raisedByOne s.pwmErrcnt }
        (((tickFrames ch on off).take j).map (fun op => .bus .pwm op (some [])) ++
          (((tickFrames ch on off).drop j).take 1).map (failed .pwm) ++ [answered opcode .busError 0#32]))

/-- From `t`, a read of MODE1, a write of the byte computed from it, a settle delay and the response end the operation; a
failure of the read or of the write ends it there, is counted and answered (45_pwm.md rules R258, R260, R231). -/
def WritesMode (opcode : Byte) (byte : Byte → Byte) (s t : State) : Prop :=
  ∀ (tmp : Byte) (a : BusAnswer),
    RunsTo .pwm [.ok [tmp], .ok [], a, a] t
      (s.logged [readBack .pwm 0x00#8 [tmp], wrote .pwm [0x00#8, byte tmp], .delay .pwm 5#16, answered opcode .ok 0#32]) ∧
    RunsTo .pwm [.fail, a] t
      (State.logged { s with pwmErrcnt := raisedByOne s.pwmErrcnt }
        [failed .pwm (.writeThenRead [0x00#8] 1), answered opcode .busError 0#32]) ∧
    RunsTo .pwm [.ok [tmp], .fail, a] t
      (State.logged { s with pwmErrcnt := raisedByOne s.pwmErrcnt }
        [readBack .pwm 0x00#8 [tmp], failed .pwm (.write [0x00#8, byte tmp]), answered opcode .busError 0#32])

/-! ### The measurements of slot 1 -/

/-- The bus answers of one measurement: the byte of the trigger's read, the status bytes of the wait that are not ready, the one
that is, and the result. -/
structure Measurement where
  tmp : Byte
  waiting : List Byte
  ready : Byte
  hi : Byte
  lo : Byte
  deriving DecidableEq, Repr

/-- The status byte shows the kind ready: bit 1 for ambient, bit 2 for proximity (42_codec_pxa.md rule R161). -/
def showsReady : Kind → Byte → Bool
  | .amb, status => status.getLsbD 1
  | .prox, status => status.getLsbD 2

/-- The byte written back by the trigger: bit 3 set for ambient, bit 4 for proximity (rules R161, R162). -/
def triggerByte : Kind → Byte → Byte
  | .amb, tmp => tmp ||| 0x08#8
  | .prox, tmp => tmp ||| 0x10#8

/-- The result register of the kind (rule R161). -/
def resultOf : Kind → Byte
  | .amb => 0x85#8
  | .prox => 0x87#8

/-- The data event of the kind (rule R172). -/
def dataEvent (p : Params) (k : Kind) (hi lo : Byte) : Event :=
  match k with
  | .amb => .ambientLightReceived (reading hi lo)
  | .prox => .proximityReceived (reading hi lo) (p.proxConvert (rawReading hi lo))

/-- The kind shows ready at the last status read and at none before it, within the budget of `n` reads. -/
def Measurement.Fits (m : Measurement) (k : Kind) (n : Half) : Prop :=
  (∀ b ∈ m.waiting, showsReady k b = false) ∧ showsReady k m.ready = true ∧ m.waiting.length < n.toNat

/-- The bus answers of the reads of a wait, `a` standing for the delay between two of them. -/
def waitAnswers (statuses : List Byte) (a : BusAnswer) : List BusAnswer :=
  (statuses.map fun b => BusAnswer.ok [b]).intersperse a

/-- The trace of a wait: the status reads, a delay of `gap` between two of them (rule R171). -/
def waitTrace (statuses : List Byte) (gap : Half) : List TraceEntry :=
  (statuses.map fun b => readBack .pxa 0x80#8 [b]).intersperse (.delay .pxa gap)

/-- The trace of the trigger: read 0x80, write it back with the trigger bit (rule R162). -/
def triggerTrace (k : Kind) (tmp : Byte) : List TraceEntry :=
  [readBack .pxa 0x80#8 [tmp], wrote .pxa [0x80#8, triggerByte k tmp]]

/-- The trace of a whole measurement up to its result. -/
def Measurement.trace (m : Measurement) (k : Kind) (gap : Half) : List TraceEntry :=
  triggerTrace k m.tmp ++ waitTrace (m.waiting ++ [m.ready]) gap ++ [readBack .pxa (resultOf k) [m.hi, m.lo]]

/-- The state after a measurement: the trace with its data event, the last status byte, the result. -/
def Measurement.done (m : Measurement) (k : Kind) (gap : Half) (s : State) : State :=
  (State.logged { s with lastStatus := m.ready } (m.trace k gap ++ [.evt (dataEvent Config.params k m.hi m.lo)])).setRes
    .pxa (reading m.hi m.lo) true

/-- `MeasurementFails k n gap a before answers last entries`: a measurement of the kind `k`, with a budget of `n` status reads, can
end in a `BusError` on these answers of the bus from its trigger on (`a` standing for the micro-steps with no transaction), having
appended `entries` and left `last` in `last_status`, which held `before` (rules R162, R170, R171, R174). The budget bounds only the
reads before the failing one: a trigger fails with any budget. -/
inductive MeasurementFails (k : Kind) (n gap : Half) (a : BusAnswer) (before : Byte) :
    List BusAnswer → Byte → List TraceEntry → Prop
  /-- The read of the trigger fails. -/
  | triggerRead : MeasurementFails k n gap a before [.fail] before [failed .pxa (.writeThenRead [0x80#8] 1)]
  /-- The write of the trigger fails. -/
  | triggerWrite (tmp : Byte) : MeasurementFails k n gap a before [.ok [tmp], .fail] tmp
      [readBack .pxa 0x80#8 [tmp], failed .pxa (.write [0x80#8, triggerByte k tmp])]
  /-- A status read fails, after reads within the budget that did not show ready. -/
  | statusRead (tmp : Byte) (waiting : List Byte) (notReady : ∀ b ∈ waiting, showsReady k b = false)
      (budget : waiting.length < n.toNat) : MeasurementFails k n gap a before
      ([.ok [tmp], .ok [], a] ++ waiting.flatMap (fun b => [.ok [b], a]) ++ [.fail]) (waiting.getLastD tmp)
      (triggerTrace k tmp ++ waiting.flatMap (fun b => [readBack .pxa 0x80#8 [b], .delay .pxa gap]) ++
        [failed .pxa (.writeThenRead [0x80#8] 1)])
  /-- The read of the result fails. -/
  | resultRead (m : Measurement) (fits : m.Fits k n) : MeasurementFails k n gap a before
      ([.ok [m.tmp], .ok [], a] ++ waitAnswers (m.waiting ++ [m.ready]) a ++ [.fail]) m.ready
      (triggerTrace k m.tmp ++ waitTrace (m.waiting ++ [m.ready]) gap ++ [failed .pxa (.writeThenRead [resultOf k] 2)])

/-- The bus answers of a measurement that succeeds, from its trigger to its publish step. -/
def Measurement.answers (m : Measurement) (a : BusAnswer) : List BusAnswer :=
  [.ok [m.tmp], .ok [], a] ++ waitAnswers (m.waiting ++ [m.ready]) a ++ [.ok [m.hi, m.lo], a]

/-- `POLL_MAX_AMB` or `POLL_MAX_PROX`: the budget of the kind (rule R161). -/
def State.budget (s : State) : Kind → Half
  | .amb => s.pollMaxAmb
  | .prox => s.pollMaxProx

/-- The state after a wait that used up its budget: the reads made, `RES[1]` -1 and invalid, one `SensorException` of kind `Timeout`
and then `report` (rules R171, R173). -/
def timedOut (k : Kind) (tmp : Byte) (statuses : List Byte) (gap : Half) (report : List TraceEntry) (s : State) : State :=
  (State.logged { s with lastStatus := statuses.getLastD tmp }
    (triggerTrace k tmp ++ waitTrace statuses gap ++ [.evt (.sensorException .timeout 1#8)] ++ report)).setRes
      .pxa 0xFFFFFFFF#32 false

/-! ### The bound on an operation (47_poll.md rule R326) -/

/-- The micro-steps left in the ADC cycle from its step 1: five for each channel not yet looked at, and the last two. -/
def adcCycleLeft (cursor : Nat) : Nat := 5 * (8 - cursor) + 2

/-- The micro-steps left in the PXA cycle from its step 1. -/
def pxaCycleLeft (pmAmb pmProx : Half) (cursor : Nat) : Nat :=
  2 + (if cursor = 0 then 2 * pmAmb.toNat + 5 else 0) + (if cursor ≤ 1 then 2 * pmProx.toNat + 5 else 0)

/-- At most so many micro-steps are left at step `k` of the operation that `q` holds. -/
def stepsLeftAt (q : Seq) (k : Nat) : Nat :=
  match q.op with
  | .adcCycle _ _ _ =>
    if k = 1 then adcCycleLeft q.cursor else if k = 6 then 1 else (6 - k) + adcCycleLeft q.cursor
  | .pxmeas _ =>
    if k ≤ 3 then 2 * q.n.toNat + 6 - k
    else if k = 4 then 2 * q.n.toNat + 2 else if k = 5 then 2 * q.n.toNat + 3 else 9 - k
  | .pxaCycle _ pmAmb pmProx _ =>
    if k = 1 then pxaCycleLeft pmAmb pmProx q.cursor
    else if k = 9 then 1
    else pxaCycleLeft pmAmb pmProx q.cursor +
      (if k ≤ 4 then 2 * q.n.toNat + 6 - k
       else if k = 5 then 2 * q.n.toNat + 1 else if k = 6 then 2 * q.n.toNat + 2 else 9 - k)
  | op => op.length + 1 - k

/-- At most so many micro-steps of slot `d` are left before its guard clears. -/
def stepsLeft (d : Slot) (s : State) : Nat :=
  if s.guard.get d = false then 0
  else match (s.seq.get d).step with
    | .failExit => 1
    | .at k => stepsLeftAt (s.seq.get d) k

end Sys2Proof.Machine
end

