-- ==== Sys2Proof/Certificates/Slice0/Obligations.lean ====
section
/-!
DEFINITION. The statements about the block, for the provers. Each says in its docstring which rule of spec/ it formalises.
-/

open Sys2Proof Sys2Proof.Machine

/-! ### Encoding -/

/-- Decoding the frame of a well-formed command gives the command back, from the frame and from its five bytes
(30_encoding.md rules R100 to R102, R110). -/
def Obligations.DecodeOfEncode : Prop :=
  ∀ i : Instr, i.WellFormed = true →
    decode (encode i) = .ok i ∧ decodeBytes (frameBytes (encode i)) = .ok i

/-- A frame that decodes is the frame of a well-formed command: no bit of it is dropped, and each frame has one meaning
(rules R101, R102, R110). -/
def Obligations.EncodeOfDecode : Prop :=
  ∀ (f : Frame) (i : Instr), decode f = .ok i → encode i = f ∧ i.WellFormed = true

/-- The opcode map is the 24 rows of rule R110, a frame is the command of a row exactly when `f AND mask = match`, and the rows
are disjoint. -/
def Obligations.OpcodeMap : Prop :=
  opcodeTable.map (fun r => (r.mnemonic, r.pat.toNat, r.mask.toNat)) =
    [ ("CFGW", 0x0100000000, 0xFFFF000000), ("CFGR", 0x0200000000, 0xFFFF00FFFF),
      ("START", 0x0300000000, 0xFFFFFC0000), ("STOP", 0x0400000000, 0xFFFFFCFFFF),
      ("ADTRIG", 0x1000000000, 0xFFFFFFFF00), ("ADREAD", 0x1100000000, 0xFFFFFFFFFF),
      ("ADMEAS", 0x1200000000, 0xFFFFFFFF00), ("PXTRIG", 0x2000000000, 0xFFFFFFFFFE),
      ("PXRDY", 0x2100000000, 0xFFFFFFFFFE), ("PXREAD", 0x2200000000, 0xFFFFFFFFFE),
      ("PXMEAS", 0x2300000000, 0xFFFFFFFFFE), ("PXLED", 0x2400000000, 0xFFFFFF0000),
      ("USTRIG", 0x3000000000, 0xFFFFFFFFFF), ("USREAD", 0x3100000000, 0xFFFFFFFFFF),
      ("USMEAS", 0x3200000000, 0xFFFFFFFFFF), ("CRCV", 0x4000000000, 0xFFFC000000),
      ("SETFREQ", 0x5000000000, 0xFFFFFF0000), ("SETPWM", 0x5100000000, 0xFF0C000000),
      ("FULLON", 0x5200000000, 0xFF0FFFFFFF), ("FULLOFF", 0x5300000000, 0xFF0FFFFFFF),
      ("SETDUTY", 0x5400000000, 0xFF0FFF0000), ("SLEEP", 0x5500000000, 0xFFFFFFFFFF),
      ("WAKE", 0x5600000000, 0xFFFFFFFFFF), ("RESTART", 0x5700000000, 0xFFFFFFFFFF) ] ∧
  (∀ (f : Frame) (i : Instr), decode f = .ok i ↔ ∃ r ∈ opcodeTable, f &&& r.mask = r.pat ∧ r.read f = i) ∧
  ∀ (f : Frame) (r r' : OpcodeRow), r ∈ opcodeTable → r' ∈ opcodeTable → f &&& r.mask = r.pat → f &&& r'.mask = r'.pat →
    r.mnemonic = r'.mnemonic

/-- Words written out from the encodings of rules R101 and R110, one of each family, decode to the commands they stand for. -/
def Obligations.SpecWordsDecode : Prop :=
  decodeBytes [0x01#8, 0x00#8, 0x00#8, 0x00#8, 0x05#8] = .ok (.cfgw 0x00#8 0x0005#16) ∧
  decodeBytes [0x03#8, 0x00#8, 0x02#8, 0x00#8, 0x05#8] = .ok (.start .usr 5) ∧
  decodeBytes [0x12#8, 0x00#8, 0x00#8, 0x00#8, 0x02#8] = .ok (.admeas 2) ∧
  decodeBytes [0x20#8, 0x00#8, 0x00#8, 0x00#8, 0x01#8] = .ok (.pxtrig .prox) ∧
  decodeBytes [0x31#8, 0x00#8, 0x00#8, 0x00#8, 0x00#8] = .ok .usread ∧
  decodeBytes [0x40#8, 0x03#8, 0x68#8, 0x3A#8, 0x1E#8] = .ok (.crcv 0x683A#16 0x1E#8 true true) ∧
  decodeBytes [0x51#8, 0x30#8, 0x00#8, 0x08#8, 0x00#8] = .ok (.setpwm 3 0 2048) ∧
  decodeBytes [0x54#8, 0x50#8, 0x00#8, 0xFF#8, 0xFF#8] = .ok (.setduty 5 (-1))

/-- A frame that matches no row of rule R110, and so every frame of an unlisted opcode byte, is answered `ILLEGAL` with its byte
0, and nothing else happens (rule R111). -/
def Obligations.IllegalFrameAnswered : Prop :=
  (∀ (f : Frame) (s : State), (∀ r ∈ opcodeTable, f &&& r.mask ≠ r.pat) →
    step (presentFrame f s) = .next (s.logged [answered (f.extractLsb' 32 8) .illegal 0#32])) ∧
  ∀ f : Frame,
    ((f >>> 32).toNat = 0x00 ∨ (0x05 ≤ (f >>> 32).toNat ∧ (f >>> 32).toNat ≤ 0x0F) ∨
      (0x13 ≤ (f >>> 32).toNat ∧ (f >>> 32).toNat ≤ 0x1F) ∨ (0x25 ≤ (f >>> 32).toNat ∧ (f >>> 32).toNat ≤ 0x2F) ∨
      (0x33 ≤ (f >>> 32).toNat ∧ (f >>> 32).toNat ≤ 0x3F) ∨ (0x41 ≤ (f >>> 32).toNat ∧ (f >>> 32).toNat ≤ 0x4F) ∨
      0x58 ≤ (f >>> 32).toNat) →
    ∀ r ∈ opcodeTable, f &&& r.mask ≠ r.pat

/-! ### The step -/

/-- A frame presented at the CMD port that decodes to a command takes that command's acceptance step, and the step adds nothing
around it (10_state.md rule R43; 60_exceptions.md rule R374). -/
def Obligations.StepRunsDecodedCommand : Prop :=
  (∀ (f : Frame) (i : Instr) (s : State), decode f = .ok i → step (presentFrame f s) = exec i s) ∧
  ∀ (i : Instr) (s : State), i.WellFormed = true → step (s.withFetchWord 40 (encode i).toNat) = exec i s

/-- The model's choice (log entry 1): a step takes the oldest input presented, and a free one when none is presented. -/
def Obligations.StepTakesOldestInput : Prop :=
  (∀ (i : Input) (rest : List Input) (s : State), s.inputs = i :: rest → step s = deliver i { s with inputs := rest }) ∧
  ∀ s : State, s.inputs = [] → step s = deliver (Config.schedule s.turn) { s with turn := s.turn + 1 }

/-! ### Reset and the invariant -/

/-- After reset every piece of state holds the value of the table of rule R48. -/
def Obligations.ResetHoldsTheTable : Prop := ResetValues Config.params State.reset

/-- A `Reset` presented at any time, in any state, is one step to the values of rule R48 with the trace afresh: no operation is
left running, nothing is answered, published or counted, and no transaction is issued; after it nothing happens until a command is
presented, for a tick and a micro-step change nothing (rules R400, R401). -/
def Obligations.ResetFromAnyState : Prop :=
  ∀ s : State, ∃ t, deliver .reset s = .next t ∧ ResetValues Config.params t ∧
    (∀ d, deliver (.tick d) t = .next t) ∧ ∀ d a, deliver (.micro d a) t = .next t

/-- The invariant of the reachable states holds after reset (rules R328, R48). -/
def Obligations.InvariantAtReset : Prop := Inv Config.params State.reset

/-- Every step keeps the invariant: the guard says exactly whether the sequencer runs (I1), a stopped slot's timer is off (I2), a
result register holds a reading or the sentinel, which is never valid (I5), the must-be-zero bits of the configuration registers
stay zero, and a running sequencer holds legal contents (rules R328, R22, R26, R40). -/
def Obligations.InvariantKeptByStep : Prop :=
  ∀ s t : State, Inv Config.params s → step s = .next t → Inv Config.params t

/-- From a state of the invariant no input makes the block fault or refuse: the faults of the model (log entry 11) are not
reached, and every input has its effect. -/
def Obligations.NoInputStopsTheBlock : Prop :=
  ∀ (i : Input) (s : State), Inv Config.params s → ∃ t, deliver i s = .next t

/-! ### The bus -/

/-- Every transaction is a row of the closed table of wire frames F1 to F16, and is issued only in a micro-step of its own slot
while the guard is set, at most one in a step; a step but for a reset only appends to the trace (30_encoding.md rule R120;
47_poll.md rule R328 I3, I7). -/
def Obligations.BusOnlyByTheTable : Prop :=
  ∀ (i : Input) (s t : State), Inv Config.params s → i ≠ .reset → deliver i s = .next t →
    ∃ es, t.trace = s.trace ++ es ∧
      (∀ d op a, .bus d op a ∈ es →
        (∃ ans, i = .micro d ans) ∧ s.guard.get d = true ∧ WireRow Config.params d op) ∧
      ∀ d, (es.filter (TraceEntry.isBusOf d)).length ≤ 1

/-- Once a slot is stopped and idle, no input but a reset makes it issue a bus transaction, take its guard or clear its stopped
bit (47_poll.md rules R328 I6, R317; 10_state.md rule R24). -/
def Obligations.StoppedIdleSlotStaysQuiet : Prop :=
  ∀ (d : Slot) (is : List Input) (s : State), Inv Config.params s → s.stopped.get d = true → s.guard.get d = false →
    .reset ∉ is →
    ∃ t, deliverAll is s = .next t ∧ t.stopped.get d = true ∧ t.guard.get d = false ∧
      t.trace.filter (TraceEntry.isBusOf d) = s.trace.filter (TraceEntry.isBusOf d)

/-- A busy slot's operation is its own: no command, no tick and no micro-step of another slot changes its sequencer or its guard
(47_poll.md rules R314, R321, R328 I4; 10_state.md rule R22). -/
def Obligations.BusySlotIsNotDisturbed : Prop :=
  ∀ (d : Slot) (i : Input) (s t : State), s.guard.get d = true → i ≠ .reset → (∀ a, i ≠ .micro d a) →
    deliver i s = .next t → t.guard.get d = true ∧ t.seq.get d = s.seq.get d

/-- A micro-step of slot `d` changes no state of another slot, no timer, no stopped bit, no configuration register, no skip counter
and not the checksum flag; `last_status` only for slot 1, `adc_cur_ch` only for slot 0, `pwm_errcnt` only for slot 3
(20_memory.md rule R80; 47_poll.md rule R323). -/
def Obligations.MicroStepTouchesItsSlot : Prop :=
  ∀ (d : Slot) (a : BusAnswer) (s t : State), deliver (.micro d a) s = .next t →
    (∀ e, e ≠ d → t.guard.get e = s.guard.get e ∧ t.seq.get e = s.seq.get e) ∧
    (∀ e : Sensor, e.slot ≠ d → t.res.get e = s.res.get e ∧ t.resValid.get e = s.resValid.get e) ∧
    t.timerEn = s.timerEn ∧ t.stopped = s.stopped ∧ t.interval = s.interval ∧ t.skipCount = s.skipCount ∧
    t.crcOk = s.crcOk ∧ t.adcChmask = s.adcChmask ∧ t.pxaKinds = s.pxaKinds ∧ t.pollMaxAmb = s.pollMaxAmb ∧
    t.pollMaxProx = s.pollMaxProx ∧ t.pollGapMs = s.pollGapMs ∧
    (d ≠ .pxa → t.lastStatus = s.lastStatus) ∧ (d ≠ .adc → t.adcCurCh = s.adcCurCh) ∧
    (d ≠ .pwm → t.pwmErrcnt = s.pwmErrcnt)

/-- Every operation ends: in any schedule without a reset that gives the slot's sequencer `stepsLeft` micro-steps, whatever the bus
answers and whatever else happens between them, the guard clears on the way. An operation just accepted has at most so many left as
rule R326 says. -/
def Obligations.EveryOperationEnds : Prop :=
  (∀ (d : Slot) (is : List Input) (s : State), Inv Config.params s → .reset ∉ is →
    stepsLeft d s ≤ (is.filter fun i => match i with | .micro e _ => e == d | _ => false).length →
    ∃ pre t, pre <+: is ∧ deliverAll pre s = .next t ∧ t.guard.get d = false) ∧
  ∀ (d : Slot) (s : State), s.guard.get d = true → (s.seq.get d).step = .at 1 →
    match (s.seq.get d).op with
    | .adcCycle _ _ _ => stepsLeft d s ≤ 5 * 8 + 2
    | .pxmeas gap => stepsLeft d s ≤ (Op.pxmeas gap).length - 3 + (2 * (s.seq.get d).n.toNat + 1)
    | .pxaCycle _ pmAmb pmProx _ => stepsLeft d s ≤ 2 + (4 + (2 * pmAmb.toNat + 1)) + (4 + (2 * pmProx.toNat + 1))
    | op => stepsLeft d s ≤ op.length

/-! ### Acceptance -/

/-- A command whose operands are refused is answered with that refusal, before the `STOPPED` and `BUSY` checks, and nothing else
happens, but for the zero reading of an absent `ADMEAS` (47_poll.md rule R314 step 2; 60_exceptions.md rule R365). -/
def Obligations.OperandsCheckedFirst : Prop :=
  ∀ (i : Instr) (status : Status) (s : State), operandRefusal Config.params i = some status →
    exec i s = .next ((match i with
      | .admeas _ => s.setRes .adc 0#32 false
      | _ => s).logged [answered i.opcode status 0#32])

/-- A command of a stopped slot is answered `STOPPED`, and a command of a busy slot `BUSY`, and nothing else happens: nothing is
queued (47_poll.md rules R314 steps 4 and 5, R315). -/
def Obligations.StoppedThenBusyRefused : Prop :=
  ∀ (i : Instr) (d : Slot) (s : State), commandSlot i = some d → operandRefusal Config.params i = none →
    (s.stopped.get d = true → exec i s = .next (s.logged [answered i.opcode .stopped 0#32])) ∧
    (s.stopped.get d = false → s.guard.get d = true → exec i s = .next (s.logged [answered i.opcode .busy 0#32]))

/-- Every command completes its acceptance step, either with exactly one response, to its own opcode, or by starting its slot, with
none; and a micro-step appends a response exactly when it ends an operation that a command started, one, to that command's opcode
(10_state.md rules R35, R44; 60_exceptions.md rule R361). -/
def Obligations.OneResponsePerCommand : Prop :=
  (∀ (i : Instr) (s : State), ∃ t es, exec i s = .next t ∧ t.trace = s.trace ++ es ∧
    ((∃ r, es.filter TraceEntry.isRsp = [.rsp r] ∧ r.opcode = i.opcode ∧ t.guard = s.guard ∧ t.seq = s.seq) ∨
      (es = [] ∧ ∃ d q, commandSlot i = some d ∧ s.guard.get d = false ∧ q.opcode = i.opcode ∧ q.origin = .cmd ∧
        t = (s.setGuard d true).setSeq d q))) ∧
  ∀ (d : Slot) (a : BusAnswer) (s t : State), s.guard.get d = true → deliver (.micro d a) s = .next t →
    ∃ es, t.trace = s.trace ++ es ∧
      if t.guard.get d = false ∧ (s.seq.get d).origin = .cmd then
        ∃ r, es.filter TraceEntry.isRsp = [.rsp r] ∧ r.opcode = (s.seq.get d).opcode
      else es.filter TraceEntry.isRsp = []

/-- A configuration write, a `START` and a `STOP` change no sequencer and no guard, and no micro-step depends on the configuration
registers, the timers or the stopped bits, or changes them: a running operation works with what it latched, and one that is running when
its slot is stopped takes its remaining micro-steps, transactions included, and ends in the ordinary way (10_state.md rule R36; 47_poll.md
rules R316, R317). -/
def Obligations.RunningOperationIsLatched : Prop :=
  (∀ i : Instr, (∃ reg val, i = .cfgw reg val) ∨ (∃ slot interval, i = .start slot interval) ∨ (∃ slot, i = .stop slot) →
    ∀ s : State, ∃ t, exec i s = .next t ∧ t.seq = s.seq ∧ t.guard = s.guard) ∧
  ∀ (d : Slot) (a : BusAnswer) (s : State) (mask kinds amb prox gap : Half) (timers : PerSensor Bool)
    (intervals : PerSensor Half) (stopped : PerSlot Bool),
    let reconfigured := fun t : State =>
      { t with adcChmask := mask, pxaKinds := kinds, pollMaxAmb := amb, pollMaxProx := prox, pollGapMs := gap,
               timerEn := timers, interval := intervals, stopped := stopped }
    deliver (.micro d a) (reconfigured s) =
      match deliver (.micro d a) s with
      | .next t => .next (reconfigured t)
      | .fault r => .fault r
      | .refused r => .refused r

/-! ### POLL -/

/-- `CFGW` writes one of the five configuration registers and answers `OK`; another index, or a must-be-zero bit set, is answered
`RANGE_ERROR` and changes nothing; it is never `BUSY` and never `STOPPED` (47_poll.md rule R318). -/
def Obligations.CfgwWritesItsRegister : Prop :=
  ∀ (reg : Byte) (val : Half) (s : State),
    exec (.cfgw reg val) s = .next
      (if reg = 0x00#8 ∧ val.toNat < 2 ^ 8 then State.logged { s with adcChmask := val } [answered 0x01#8 .ok 0#32]
       else if reg = 0x01#8 ∧ val.toNat < 2 ^ 2 then State.logged { s with pxaKinds := val } [answered 0x01#8 .ok 0#32]
       else if reg = 0x02#8 then State.logged { s with pollMaxAmb := val } [answered 0x01#8 .ok 0#32]
       else if reg = 0x03#8 then State.logged { s with pollMaxProx := val } [answered 0x01#8 .ok 0#32]
       else if reg = 0x04#8 then State.logged { s with pollGapMs := val } [answered 0x01#8 .ok 0#32]
       else s.logged [answered 0x01#8 .rangeError 0#32])

/-- `CFGR` answers the value of a control register, by the table of 10_state.md rule R40, and changes nothing; an undefined index is
answered `RANGE_ERROR` (47_poll.md rule R319). -/
def Obligations.CfgrReadsTheTable : Prop :=
  ∀ (reg : Byte) (s : State),
    let table : List (Nat × Nat) :=
      [ (0x00, s.adcChmask.toNat), (0x01, s.pxaKinds.toNat), (0x02, s.pollMaxAmb.toNat), (0x03, s.pollMaxProx.toNat),
        (0x04, s.pollGapMs.toNat),
        (0x10, s.guard.adc.toNat + 2 * s.timerEn.adc.toNat + 4 * s.stopped.adc.toNat + 8 * s.resValid.adc.toNat),
        (0x11, s.guard.pxa.toNat + 2 * s.timerEn.pxa.toNat + 4 * s.stopped.pxa.toNat + 8 * s.resValid.pxa.toNat),
        (0x12, s.guard.usr.toNat + 2 * s.timerEn.usr.toNat + 4 * s.stopped.usr.toNat + 8 * s.resValid.usr.toNat),
        (0x13, s.guard.pwm.toNat + 4 * s.stopped.pwm.toNat),
        (0x14, s.interval.adc.toNat), (0x15, s.interval.pxa.toNat), (0x16, s.interval.usr.toNat),
        (0x18, s.skipCount.adc.toNat), (0x19, s.skipCount.pxa.toNat), (0x1A, s.skipCount.usr.toNat),
        (0x1C, s.pwmErrcnt.toNat), (0x1D, s.lastStatus.toNat), (0x1E, s.crcOk.toNat), (0x1F, s.adcCurCh.toNat),
        (0x20, s.res.adc.toNat % 65536), (0x21, s.res.pxa.toNat % 65536), (0x22, s.res.usr.toNat % 65536),
        (0x24, s.res.adc.toNat / 65536), (0x25, s.res.pxa.toNat / 65536), (0x26, s.res.usr.toNat / 65536) ]
    exec (.cfgr reg) s = .next (s.logged
      [match table.lookup reg.toNat with
       | some v => answered 0x02#8 .ok (BitVec.ofNat 32 v)
       | none => answered 0x02#8 .rangeError 0#32])

/-- `START` starts or re-times the timer of a slot and answers `OK`; slot 3 and interval 0 are a `RANGE_ERROR`, a stopped slot is
`STOPPED`; it neither tests nor takes the guard (47_poll.md rule R316). -/
def Obligations.StartStartsTheTimer : Prop :=
  ∀ (interval : Nat) (s : State), interval ≤ 65535 →
    exec (.start .pwm interval) s = .next (s.logged [answered 0x03#8 .rangeError 0#32]) ∧
    ∀ d : Sensor, exec (.start d.slot interval) s = .next
      (if interval = 0 then s.logged [answered 0x03#8 .rangeError 0#32]
       else if s.stopped.get d.slot = true then s.logged [answered 0x03#8 .stopped 0#32]
       else State.logged
         { s with timerEn := s.timerEn.set d true, interval := s.interval.set d (BitVec.ofNat 16 interval) }
         [answered 0x03#8 .ok 0#32])

/-- `STOP` sets the stopped bit, turns the slot's timer off and answers `OK`; the slot's guard and running operation, its result, its
counter and its interval are left as they are; of a stopped slot it changes nothing (47_poll.md rule R317). -/
def Obligations.StopStopsTheSlot : Prop :=
  (∀ s : State, exec (.stop .pwm) s = .next
    (State.logged { s with stopped := s.stopped.set .pwm true } [answered 0x04#8 .ok 0#32])) ∧
  (∀ (d : Sensor) (s : State), exec (.stop d.slot) s = .next
    (State.logged { s with stopped := s.stopped.set d.slot true, timerEn := s.timerEn.set d false }
      [answered 0x04#8 .ok 0#32])) ∧
  ∀ (d : Slot) (s : State), Inv Config.params s → s.stopped.get d = true →
    exec (.stop d) s = .next (s.logged [answered 0x04#8 .ok 0#32])

/-- A tick on a slot whose timer is off changes nothing; on a busy slot it is skipped and counted, and nothing else; otherwise it sets
the guard and starts the slot's cycle with the configuration the cycle names (47_poll.md rules R320, R321; 41_codec_adc.md rule R147;
42_codec_pxa.md rule R174; 43_codec_usr.md rule R197). -/
def Obligations.TickSkipsOrStartsACycle : Prop :=
  ∀ (d : Sensor) (s : State),
    (s.timerEn.get d = false → deliver (.tick d) s = .next s) ∧
    (s.timerEn.get d = true → s.guard.get d.slot = true →
      deliver (.tick d) s = .next { s with skipCount := s.skipCount.set d (raisedByOne (s.skipCount.get d)) }) ∧
    (s.timerEn.get d = true → s.guard.get d.slot = false →
      ∃ t, deliver (.tick d) s = .next t ∧ StartedByTick d.slot
        (match d with
          | .adc => .adcCycle (s.adcChmask.setWidth 8) Config.params.adcConvDelayMs (Config.params.slave .adc)
          | .pxa => .pxaCycle (s.pxaKinds.setWidth 2) s.pollMaxAmb s.pollMaxProx s.pollGapMs
          | .usr => .usrCycle) s t)

/-! ### Exceptions -/

/-- A transaction that fails, or answers with another number of bytes than asked, raises `BusError`: it is recorded, the exception is
pending and the fail-exit is next; nothing written on the action's line happens (60_exceptions.md rules R362, R363; 20_memory.md rule
R62). -/
def Obligations.FailedTransactionRaisesBusError : Prop :=
  ∀ (d : Slot) (k : Nat) (op : BusOp) (after : List Byte → State → State) (a : BusAnswer) (s : State),
    s.guard.get d = true → (s.seq.get d).op.slot = some d → (s.seq.get d).step = .at k →
    programOf Config.params (s.seq.get d) k = some (.bus op after) →
    (∀ bytes, a = .ok bytes → bytes.length ≠ op.asked) →
    deliver (.micro d a) s = .next
      ((s.logged [failed d op]).setSeq d { s.seq.get d with exc := .busError, step := .failExit })

/-- The fail-exit: on `Timeout` the result becomes -1 and invalid; slot 3 counts the failure, a cycle publishes one `SensorException`, a
primitive of slots 0 to 2 does neither; the guard clears, the slot is idle with no exception pending, and a command is answered
`BUS_ERROR`, 0 or `TIMEOUT`, -1. Nothing else changes (60_exceptions.md rule R366; 42_codec_pxa.md rule R173). -/
def Obligations.FailExitReportsAndReleases : Prop :=
  ∀ (d : Slot) (a : BusAnswer) (s : State), s.guard.get d = true → (s.seq.get d).op.slot = some d →
    (s.seq.get d).step = .failExit →
    ((s.seq.get d).exc = .busError ∨ ((s.seq.get d).exc = .timeout ∧ d = .pxa)) →
    let timeout := (s.seq.get d).exc = .timeout
    let marked := if timeout then s.setRes .pxa 0xFFFFFFFF#32 false else s
    let counted := if d = .pwm then { marked with pwmErrcnt := raisedByOne s.pwmErrcnt } else marked
    let events := if d ≠ .pwm ∧ (s.seq.get d).op.isCycle = true then
        [.evt (.sensorException (if timeout then .timeout else .busError) (d.bits.setWidth 8))]
      else []
    let response := match (s.seq.get d).origin with
      | .tick => []
      | .cmd => if timeout then [answered (s.seq.get d).opcode .timeout 0xFFFFFFFF#32]
        else [answered (s.seq.get d).opcode .busError 0#32]
    ∃ t, deliver (.micro d a) s = .next t ∧
      t = ((counted.logged (events ++ response)).setGuard d false).setSeq d
        { s.seq.get d with op := .idle, exc := .none }

/-! ### CODEC, ADC -/

/-- An unsupported channel is answered `ABSENT` before the `STOPPED` and `BUSY` checks, with no transaction, no event and no guard;
`ADMEAS` leaves the zero, invalid reading, `ADTRIG` nothing (41_codec_adc.md rule R142). -/
def Obligations.AbsentChannel : Prop :=
  ∀ (b : Nat) (s : State), Config.params.adcNchan ≤ b → b ≤ 255 →
    exec (.adtrig b) s = .next (s.logged [answered 0x10#8 .absent 0#32]) ∧
    exec (.admeas b) s = .next ((s.setRes .adc 0#32 false).logged [answered 0x12#8 .absent 0#32])

/-- An absent `ADMEAS` while slot 0 runs an operation writes the zero, invalid reading and leaves the sequencer and the guard; no
micro-step of slot 0 but one depends on `RES[0]`: it does the same to everything else, its events and its response included, and either writes
`RES[0]` again or leaves it (70_reset_and_hazards.md rule R418). The one is the retire of an `ADMEAS`, past its publish
step, which answers `RES[0]` as it stands (41_codec_adc.md rule R145 step 5); that rule R418 does not speak of it is the model's reading
(log entry 19). -/
def Obligations.AbsentAdmeasReachesNoRunningOperation : Prop :=
  (∀ (b : Nat) (s : State), Config.params.adcNchan ≤ b →
    ∃ t, exec (.admeas b) s = .next t ∧ t.seq = s.seq ∧ t.guard = s.guard ∧ t.res.adc = 0#32 ∧ t.resValid.adc = false) ∧
  ∀ (a : BusAnswer) (value : Word) (valid : Bool) (s t : State), deliver (.micro .adc a) s = .next t →
    deliver (.micro .adc a) (s.setRes .adc value valid) = .next t ∨
    deliver (.micro .adc a) (s.setRes .adc value valid) = .next (t.setRes .adc value valid) ∨
    (∃ cfg delayMs address, (s.seq.adc).op = .admeas cfg delayMs address) ∧
      (s.seq.adc).step = .at 5 ∧
      ∃ ended : State, t = ended.logged [answered (s.seq.adc).opcode .ok s.res.adc] ∧
        deliver (.micro .adc a) (s.setRes .adc value valid) =
          .next ((ended.setRes .adc value valid).logged [answered (s.seq.adc).opcode .ok value])

/-- `ADTRIG` of a supported channel on a free slot starts, writes F1, records the channel and answers `OK`; a failed write is answered
`BUS_ERROR` and records nothing; an unsupported channel is answered `ABSENT` (41_codec_adc.md rules R141, R143). -/
def Obligations.AdtrigTriggersAConversion : Prop :=
  (∀ (b : Nat) (a : BusAnswer) (s : State), b < Config.params.adcNchan → Free .adc s →
    let p := Config.params
    let cfg := p.adcMux b ||| p.adcPga ||| p.adcRate ||| p.adcMode
    let frame := [p.adcCfgPtr, (cfg >>> 8).setWidth 8, cfg.setWidth 8]
    ∃ t, exec (.adtrig b) s = .next t ∧
      Started .adc 0x10#8 (.adtrig cfg) (fun q => q.ch = BitVec.ofNat 8 b) s t ∧
      RunsTo .adc [.ok [], a] t
        (State.logged { s with adcCurCh := BitVec.ofNat 8 b } [wrote .adc frame, answered 0x10#8 .ok 0#32]) ∧
      RunsTo .adc [.fail, a] t (s.logged [failed .adc (.write frame), answered 0x10#8 .busError 0#32])) ∧
  ∀ (b : Nat) (s : State), Config.params.adcNchan ≤ b → b ≤ 255 →
    exec (.adtrig b) s = .next (s.logged [answered 0x10#8 .absent 0#32])

/-- `ADREAD` on a free slot starts, reads two bytes at pointer 0x00, puts their high-byte-first value in `RES[0]`, valid, and answers
it, with no event; a failed read is answered `BUS_ERROR` and leaves `RES[0]` (41_codec_adc.md rule R144). -/
def Obligations.AdreadReadsTheResult : Prop :=
  ∀ (a : BusAnswer) (s : State), Free .adc s →
    ∃ t, exec .adread s = .next t ∧ Started .adc 0x11#8 .adread (fun _ => True) s t ∧
      (∀ hi lo : Byte, RunsTo .adc [.ok [hi, lo], a] t
        ((s.setRes .adc (reading hi lo) true).logged
          [readBack .adc 0x00#8 [hi, lo], answered 0x11#8 .ok (reading hi lo)])) ∧
      RunsTo .adc [.fail, a] t
        (s.logged [failed .adc (.writeThenRead [0x00#8] 2), answered 0x11#8 .busError 0#32])

/-- `ADMEAS` of a supported channel on a free slot starts, writes F1, waits the conversion delay, reads F2, puts the reading in `RES[0]`,
publishes it with its channel and the slave address, and answers it; a failure of the write or of the read publishes one
`SensorException` and is answered `BUS_ERROR`; an unsupported channel leaves the zero, invalid reading and is answered `ABSENT`
(41_codec_adc.md rules R145, R146). -/
def Obligations.AdmeasMeasuresAChannel : Prop :=
  (∀ (b : Nat) (a : BusAnswer) (s : State), b < Config.params.adcNchan → Free .adc s →
    let p := Config.params
    let cfg := p.adcMux b ||| p.adcPga ||| p.adcRate ||| p.adcMode
    let frame := [p.adcCfgPtr, (cfg >>> 8).setWidth 8, cfg.setWidth 8]
    let triggered : State := { s with adcCurCh := BitVec.ofNat 8 b }
    ∃ t, exec (.admeas b) s = .next t ∧
      Started .adc 0x12#8 (.admeas cfg p.adcConvDelayMs (p.slave .adc)) (fun q => q.ch = BitVec.ofNat 8 b) s t ∧
      (∀ hi lo : Byte, RunsTo .adc [.ok [], a, .ok [hi, lo], a, a] t
        ((triggered.setRes .adc (reading hi lo) true).logged
          [wrote .adc frame, .delay .adc p.adcConvDelayMs, readBack .adc 0x00#8 [hi, lo],
           .evt (.channelReadingDone (reading hi lo) (BitVec.ofNat 8 b) ((p.slave .adc).setWidth 8)),
           answered 0x12#8 .ok (reading hi lo)])) ∧
      RunsTo .adc [.fail, a] t
        (s.logged [failed .adc (.write frame), .evt (.sensorException .busError 0#8), answered 0x12#8 .busError 0#32]) ∧
      RunsTo .adc [.ok [], a, .fail, a] t
        (triggered.logged [wrote .adc frame, .delay .adc p.adcConvDelayMs, failed .adc (.writeThenRead [0x00#8] 2),
          .evt (.sensorException .busError 0#8), answered 0x12#8 .busError 0#32])) ∧
  ∀ (b : Nat) (s : State), Config.params.adcNchan ≤ b → b ≤ 255 →
    exec (.admeas b) s = .next ((s.setRes .adc 0#32 false).logged [answered 0x12#8 .absent 0#32])

/-- A tick of slot 0 with its timer on and the slot not busy measures, in ascending order, every channel that the mask enables and the
ADC supports, each with F1, the conversion delay, F2 and its event, and ends with no response; a failure of a channel's write or read
publishes one `SensorException` and ends the cycle there, the readings before it standing; `r` gives the bytes read for each channel
(41_codec_adc.md rule R147). -/
def Obligations.AdcCycleMeasuresTheMask : Prop :=
  ∀ (a : BusAnswer) (r : Nat → Byte × Byte) (s : State), s.timerEn.adc = true → s.guard.adc = false →
    let p := Config.params
    let channels := (List.range 8).filter fun ch => decide (ch < p.adcNchan) && s.adcChmask.getLsbD ch
    let frame := fun ch : Nat =>
      let cfg := p.adcMux ch ||| p.adcPga ||| p.adcRate ||| p.adcMode
      [p.adcCfgPtr, (cfg >>> 8).setWidth 8, cfg.setWidth 8]
    let measured := fun (s : State) (ch : Nat) =>
      let value := reading (r ch).1 (r ch).2
      (State.logged { s with adcCurCh := BitVec.ofNat 8 ch }
        [wrote .adc (frame ch), .delay .adc p.adcConvDelayMs, readBack .adc 0x00#8 [(r ch).1, (r ch).2],
         .evt (.channelReadingDone value (BitVec.ofNat 8 ch) ((p.slave .adc).setWidth 8))]).setRes .adc value true
    let answers := fun ch => [a, .ok [], a, .ok [(r ch).1, (r ch).2], a]
    ∃ t, deliver (.tick .adc) s = .next t ∧
      StartedByTick .adc (.adcCycle (s.adcChmask.setWidth 8) p.adcConvDelayMs (p.slave .adc)) s t ∧
      RunsTo .adc (channels.flatMap answers ++ [a, a]) t (channels.foldl measured s) ∧
      ∀ (before rest : List Nat) (ch : Nat), channels = before ++ ch :: rest →
        let reached := before.foldl measured s
        RunsTo .adc (before.flatMap answers ++ [a, .fail, a]) t
          (reached.logged [failed .adc (.write (frame ch)), .evt (.sensorException .busError 0#8)]) ∧
        RunsTo .adc (before.flatMap answers ++ [a, .ok [], a, .fail, a]) t
          (State.logged { reached with adcCurCh := BitVec.ofNat 8 ch }
            [wrote .adc (frame ch), .delay .adc p.adcConvDelayMs, failed .adc (.writeThenRead [0x00#8] 2),
             .evt (.sensorException .busError 0#8)])

/-! ### CODEC, proximity and ambient -/

/-- `PXTRIG` on a free slot starts, reads 0x80, writes it back with bit 3 (ambient) or bit 4 (proximity) set and every other bit as read,
and answers `OK`; a failure of the read or of the write is answered `BUS_ERROR` with no event (42_codec_pxa.md rules R162, R163). -/
def Obligations.PxtrigReadsBeforeItWrites : Prop :=
  ∀ (k : Kind) (tmp : Byte) (a : BusAnswer) (s : State), Free .pxa s →
    ∃ t, exec (.pxtrig k) s = .next t ∧ Started .pxa 0x20#8 .pxtrig (fun q => q.k = k) s t ∧
      RunsTo .pxa [.ok [tmp], .ok [], a] t
        (State.logged { s with lastStatus := tmp } (triggerTrace k tmp ++ [answered 0x20#8 .ok 0#32])) ∧
      RunsTo .pxa [.fail, a] t
        (s.logged [failed .pxa (.writeThenRead [0x80#8] 1), answered 0x20#8 .busError 0#32]) ∧
      RunsTo .pxa [.ok [tmp], .fail, a] t
        (State.logged { s with lastStatus := tmp } [readBack .pxa 0x80#8 [tmp],
          failed .pxa (.write [0x80#8, triggerByte k tmp]), answered 0x20#8 .busError 0#32])

/-- `PXRDY` on a free slot starts, reads 0x80 once and answers 1 exactly when the kind's ready bit is set; a failed read is answered
`BUS_ERROR` (42_codec_pxa.md rule R165). -/
def Obligations.PxrdyTestsTheReadyBit : Prop :=
  ∀ (k : Kind) (status : Byte) (a : BusAnswer) (s : State), Free .pxa s →
    ∃ t, exec (.pxrdy k) s = .next t ∧ Started .pxa 0x21#8 .pxrdy (fun q => q.k = k) s t ∧
      RunsTo .pxa [.ok [status], a] t
        (State.logged { s with lastStatus := status } [readBack .pxa 0x80#8 [status],
          answered 0x21#8 .ok (if showsReady k status = true then 1#32 else 0#32)]) ∧
      RunsTo .pxa [.fail, a] t
        (s.logged [failed .pxa (.writeThenRead [0x80#8] 1), answered 0x21#8 .busError 0#32])

/-- `PXREAD` on a free slot starts, reads two bytes at the kind's result register, puts their high-byte-first value in `RES[1]`, valid,
and answers it, with no event; a failed read is answered `BUS_ERROR` and leaves `RES[1]` (42_codec_pxa.md rule R167). -/
def Obligations.PxreadReadsTheResult : Prop :=
  ∀ (k : Kind) (a : BusAnswer) (s : State), Free .pxa s →
    ∃ t, exec (.pxread k) s = .next t ∧ Started .pxa 0x22#8 .pxread (fun q => q.k = k) s t ∧
      (∀ hi lo : Byte, RunsTo .pxa [.ok [hi, lo], a] t
        ((s.setRes .pxa (reading hi lo) true).logged
          [readBack .pxa (resultOf k) [hi, lo], answered 0x22#8 .ok (reading hi lo)])) ∧
      RunsTo .pxa [.fail, a] t
        (s.logged [failed .pxa (.writeThenRead [resultOf k] 2), answered 0x22#8 .busError 0#32])

/-- `PXMEAS` on a free slot starts with its budget and gap latched; where the kind shows ready at a read within the budget, it triggers,
reads the status until then with a delay between two reads, reads the result, publishes it and answers it (42_codec_pxa.md rules R170,
R171, R172). -/
def Obligations.PxmeasMeasuresWhenReady : Prop :=
  ∀ (k : Kind) (a : BusAnswer) (s : State), Free .pxa s →
    ∃ t, exec (.pxmeas k) s = .next t ∧
      Started .pxa 0x23#8 (.pxmeas s.pollGapMs) (fun q => q.k = k ∧ q.n = s.budget k) s t ∧
      ∀ m : Measurement, m.Fits k (s.budget k) →
        RunsTo .pxa (m.answers a ++ [a]) t ((m.done k s.pollGapMs s).logged [answered 0x23#8 .ok (reading m.hi m.lo)])

/-- `PXMEAS` whose kind never shows ready within the budget issues exactly so many status reads as the budget says, one delay fewer, and
times out: `RES[1]` is -1 and invalid, one `SensorException` of kind `Timeout` is published, no data event, and the answer is
`TIMEOUT`, -1; with a budget of 0 no status is read and the trigger has still been written (42_codec_pxa.md rules R171, R173;
60_exceptions.md rule R364). -/
def Obligations.PxmeasTimesOut : Prop :=
  ∀ (k : Kind) (tmp : Byte) (statuses : List Byte) (a : BusAnswer) (s : State), Free .pxa s →
    (∀ b ∈ statuses, showsReady k b = false) → statuses.length = (s.budget k).toNat →
    ∃ t, exec (.pxmeas k) s = .next t ∧
      RunsTo .pxa ([.ok [tmp], .ok [], a] ++ waitAnswers statuses a ++ [a]) t
        (timedOut k tmp statuses s.pollGapMs [answered 0x23#8 .timeout 0xFFFFFFFF#32] s)

/-- A bus failure in `PXMEAS`, at the read or the write of the trigger, at a status read of the wait or at the read of the result, ends
it as a `BusError`, whatever the budget: one `SensorException`, the answer `BUS_ERROR`, and `RES[1]` as it was (42_codec_pxa.md rules
R170, R171; 60_exceptions.md rules R366, R367). -/
def Obligations.PxmeasFailsOnTheBus : Prop :=
  ∀ (k : Kind) (a : BusAnswer) (s : State), Free .pxa s →
    ∃ t, exec (.pxmeas k) s = .next t ∧
      ∀ answers last entries, MeasurementFails k (s.budget k) s.pollGapMs a s.lastStatus answers last entries →
        RunsTo .pxa (answers ++ [a]) t
          (State.logged { s with lastStatus := last }
            (entries ++ [.evt (.sensorException .busError 1#8), answered 0x23#8 .busError 0#32]))

/-- `PXLED` of at most 20 units on a free slot starts, writes the units to 0x83 and answers `OK`, or `BUS_ERROR` with no event when the
write fails; above 20 it is answered `RANGE_ERROR` and nothing else happens (42_codec_pxa.md rule R175). -/
def Obligations.PxledSetsTheCurrent : Prop :=
  (∀ (units : Nat) (a : BusAnswer) (s : State), units ≤ 20 → Free .pxa s →
    ∃ t, exec (.pxled units) s = .next t ∧
      Started .pxa 0x24#8 (.pxled (BitVec.ofNat 16 units)) (fun _ => True) s t ∧
      RunsTo .pxa [.ok [], a] t
        (s.logged [wrote .pxa [0x83#8, BitVec.ofNat 8 units], answered 0x24#8 .ok 0#32]) ∧
      RunsTo .pxa [.fail, a] t
        (s.logged [failed .pxa (.write [0x83#8, BitVec.ofNat 8 units]), answered 0x24#8 .busError 0#32])) ∧
  ∀ (units : Nat) (s : State), 20 < units → units ≤ 65535 →
    exec (.pxled units) s = .next (s.logged [answered 0x24#8 .rangeError 0#32])

/-- A tick of slot 1 with its timer on and the slot not busy starts a cycle that measures the enabled kinds, ambient first, then
proximity, each with its own latched budget, and ends with no response; `m` gives the bus answers of each kind. Where the measurements of
the kinds `before` succeed: with no kind left the cycle ends; otherwise the next kind, whose wait times out after exactly its budget of
status reads, or one of whose transactions fails, ends it there with one `SensorException` and no response, what was measured before it
standing and what comes after it not measured (42_codec_pxa.md rules R171, R172, R173, R174; 60_exceptions.md rule R366). -/
def Obligations.PxaCycleMeasuresTheKinds : Prop :=
  ∀ (a : BusAnswer) (m : Kind → Measurement) (s : State), s.timerEn.pxa = true → s.guard.pxa = false →
    let kinds := (if s.pxaKinds.getLsbD 0 then [Kind.amb] else []) ++ (if s.pxaKinds.getLsbD 1 then [Kind.prox] else [])
    ∃ t, deliver (.tick .pxa) s = .next t ∧
      StartedByTick .pxa (.pxaCycle (s.pxaKinds.setWidth 2) s.pollMaxAmb s.pollMaxProx s.pollGapMs) s t ∧
      ∀ before rest : List Kind, kinds = before ++ rest → (∀ k ∈ before, (m k).Fits k (s.budget k)) →
        let measured := before.flatMap fun k => a :: (m k).answers a
        let reached := before.foldl (fun s k => (m k).done k s.pollGapMs s) s
        match rest with
        | [] => RunsTo .pxa (measured ++ [a, a]) t reached
        | k :: _ =>
          (∀ (tmp : Byte) (statuses : List Byte), (∀ b ∈ statuses, showsReady k b = false) →
            statuses.length = (s.budget k).toNat →
            RunsTo .pxa (measured ++ [a, .ok [tmp], .ok [], a] ++ waitAnswers statuses a ++ [a]) t
              (timedOut k tmp statuses s.pollGapMs [] reached)) ∧
          ∀ answers last entries, MeasurementFails k (s.budget k) s.pollGapMs a reached.lastStatus answers last entries →
            RunsTo .pxa (measured ++ a :: answers ++ [a]) t
              (State.logged { reached with lastStatus := last } (entries ++ [.evt (.sensorException .busError 1#8)]))

/-- `last_status` is written by every read of the status register 0x80, with the byte read, and by nothing else that slot 1 does
(10_state.md rule R27; 42_codec_pxa.md rules R163, R165, R171). -/
def Obligations.LastStatusFollowsTheReads : Prop :=
  ∀ (a : BusAnswer) (s t : State), Inv Config.params s → deliver (.micro .pxa a) s = .next t →
    (∃ b, t.trace = s.trace ++ [readBack .pxa 0x80#8 [b]] ∧ t.lastStatus = b) ∨
    (t.lastStatus = s.lastStatus ∧ ∀ b, readBack .pxa 0x80#8 [b] ∉ t.trace.drop s.trace.length)

/-! ### CODEC, ultrasonic -/

/-- `USTRIG` on a free slot starts, writes `[0x00, 0x51]` and answers `OK`; a failed write is answered `BUS_ERROR` with no event
(43_codec_usr.md rule R193). -/
def Obligations.UstrigBeginsARanging : Prop :=
  ∀ (a : BusAnswer) (s : State), Free .usr s →
    ∃ t, exec .ustrig s = .next t ∧ Started .usr 0x30#8 .ustrig (fun _ => True) s t ∧
      RunsTo .usr [.ok [], a] t (s.logged [wrote .usr [0x00#8, 0x51#8], answered 0x30#8 .ok 0#32]) ∧
      RunsTo .usr [.fail, a] t (s.logged [failed .usr (.write [0x00#8, 0x51#8]), answered 0x30#8 .busError 0#32])

/-- `USREAD` on a free slot starts, reads two bytes at 0x02, puts their high-byte-first value in `RES[2]`, valid, and answers it, with no
event; a failed read is answered `BUS_ERROR` and leaves `RES[2]` (43_codec_usr.md rule R194). -/
def Obligations.UsreadReadsTheRange : Prop :=
  ∀ (a : BusAnswer) (s : State), Free .usr s →
    ∃ t, exec .usread s = .next t ∧ Started .usr 0x31#8 .usread (fun _ => True) s t ∧
      (∀ hi lo : Byte, RunsTo .usr [.ok [hi, lo], a] t
        ((s.setRes .usr (reading hi lo) true).logged
          [readBack .usr 0x02#8 [hi, lo], answered 0x31#8 .ok (reading hi lo)])) ∧
      RunsTo .usr [.fail, a] t
        (s.logged [failed .usr (.writeThenRead [0x02#8] 2), answered 0x31#8 .busError 0#32])

/-- `USMEAS` on a free slot starts, writes the trigger, waits 70 ms, reads the range, puts it in `RES[2]`, publishes it and answers it; a
failure of the write or of the read publishes one `SensorException` and is answered `BUS_ERROR` (43_codec_usr.md rules R195, R196). -/
def Obligations.UsmeasMeasuresTheRange : Prop :=
  ∀ (a : BusAnswer) (s : State), Free .usr s →
    ∃ t, exec .usmeas s = .next t ∧ Started .usr 0x32#8 .usmeas (fun _ => True) s t ∧
      (∀ hi lo : Byte, RunsTo .usr [.ok [], a, .ok [hi, lo], a, a] t
        ((s.setRes .usr (reading hi lo) true).logged
          [wrote .usr [0x00#8, 0x51#8], .delay .usr 70#16, readBack .usr 0x02#8 [hi, lo],
           .evt (.rangeReceived (reading hi lo)), answered 0x32#8 .ok (reading hi lo)])) ∧
      RunsTo .usr [.fail, a] t
        (s.logged [failed .usr (.write [0x00#8, 0x51#8]), .evt (.sensorException .busError 2#8),
          answered 0x32#8 .busError 0#32]) ∧
      RunsTo .usr [.ok [], a, .fail, a] t
        (s.logged [wrote .usr [0x00#8, 0x51#8], .delay .usr 70#16, failed .usr (.writeThenRead [0x02#8] 2),
          .evt (.sensorException .busError 2#8), answered 0x32#8 .busError 0#32])

/-- A tick of slot 2 with its timer on and the slot not busy does what `USMEAS` does, with no response; a failure of the write or of the
read publishes one `SensorException` (43_codec_usr.md rule R197). -/
def Obligations.UsrCycleMeasuresTheRange : Prop :=
  ∀ (a : BusAnswer) (s : State), s.timerEn.usr = true → s.guard.usr = false →
    ∃ t, deliver (.tick .usr) s = .next t ∧ StartedByTick .usr .usrCycle s t ∧
      (∀ hi lo : Byte, RunsTo .usr [.ok [], a, .ok [hi, lo], a, a] t
        ((s.setRes .usr (reading hi lo) true).logged
          [wrote .usr [0x00#8, 0x51#8], .delay .usr 70#16, readBack .usr 0x02#8 [hi, lo],
           .evt (.rangeReceived (reading hi lo))])) ∧
      RunsTo .usr [.fail, a] t
        (s.logged [failed .usr (.write [0x00#8, 0x51#8]), .evt (.sensorException .busError 2#8)]) ∧
      RunsTo .usr [.ok [], a, .fail, a] t
        (s.logged [wrote .usr [0x00#8, 0x51#8], .delay .usr 70#16, failed .usr (.writeThenRead [0x02#8] 2),
          .evt (.sensorException .busError 2#8)])

/-! ### CODEC, checksum -/

/-- `CRCV` completes in its one step, in every state: it writes the comparison to `crc_ok` and answers it; a strict mismatch publishes
`ChecksumError` with slot 0xFF and is answered `CHECKSUM_ERROR` (44_codec_crc.md rules R213, R214). -/
def Obligations.CrcvComparesTheChecksum : Prop :=
  ∀ (data : Half) (crc : Byte) (quirk strict : Bool) (s : State),
    let ok := crc8 data == (if quirk then crc ^^^ 0x62#8 else crc)
    exec (.crcv data crc quirk strict) s = .next (State.logged { s with crcOk := ok }
      (if ok then [answered 0x40#8 .ok 1#32]
       else if strict then [.evt (.sensorException .checksumError 0xFF#8), answered 0x40#8 .checksumError 0#32]
       else [answered 0x40#8 .ok 0#32]))

/-- The checksum is the remainder of the long division: `c` is the checksum of `data` exactly when the 24-bit value divides
(44_codec_crc.md rule R212). -/
def Obligations.ChecksumIsDivision : Prop := ∀ (data : Half) (c : Byte), crcDivides data c = (crc8 data == c)

/-- For every data and each variant exactly one checksum byte is valid (44_codec_crc.md rule R213). -/
def Obligations.OneValidChecksum : Prop :=
  ∀ (data : Half) (crc : Byte),
    (crcValid data crc false = true ↔ crc = crc8 data) ∧ (crcValid data crc true = true ↔ crc = crc8 data ^^^ 0x62#8)

/-- Flipping any one bit, or any two bits, of the 24-bit pair of data and checksum makes a valid pair invalid, for both variants
(44_codec_crc.md rule R215). -/
def Obligations.FlippedBitsAreCaught : Prop :=
  ∀ (data : Half) (crc : Byte) (quirk : Bool) (i j : Fin 24), crcValid data crc quirk = true →
    let flips := fun bits : BitVec 24 => crcValid (data ^^^ bits.extractLsb' 8 16) (crc ^^^ bits.extractLsb' 0 8) quirk
    flips (1#24 <<< i.val) = false ∧ (i ≠ j → flips ((1#24 <<< i.val) ^^^ (1#24 <<< j.val)) = false)

/-! ### PWMENC -/

/-- `SETFREQ` of a legal frequency on a free slot starts and runs sleep, write prescale, wake, restart, each mode write with its settle
delay, and answers the prescale; a failure of one of its transactions, the `j`-th micro-step, ends it there, is counted and answered; a
frequency outside 24..1526 is answered `RANGE_ERROR` and nothing else happens (45_pwm.md rules R231, R232, R234, R236, R259). -/
def Obligations.SetfreqSleepsWritesWakesRestarts : Prop :=
  (∀ (hz : Nat) (m1 m2 m3 : Byte) (a : BusAnswer) (s : State), 24 ≤ hz → hz ≤ 1526 → Free .pwm s →
    let slp := Config.params.mode1Sleep
    let rst := Config.params.mode1Restart
    let v := (25000000 + 2048 * hz) / (4096 * hz) - 1
    let answers := [.ok [m1], .ok [], a, .ok [], .ok [m2], .ok [], a, .ok [m3], .ok [], a]
    let entries :=
      [readBack .pwm 0x00#8 [m1], wrote .pwm [0x00#8, (m1 &&& ~~~rst) ||| slp], .delay .pwm 5#16,
       wrote .pwm [0xFE#8, BitVec.ofNat 8 v],
       readBack .pwm 0x00#8 [m2], wrote .pwm [0x00#8, m2 &&& ~~~slp &&& ~~~rst], .delay .pwm 5#16,
       readBack .pwm 0x00#8 [m3], wrote .pwm [0x00#8, (m3 &&& ~~~slp) ||| rst], .delay .pwm 5#16]
    ∃ t, exec (.setfreq hz) s = .next t ∧
      Started .pwm 0x50#8 (.setfreq (BitVec.ofNat 8 v) slp rst) (fun _ => True) s t ∧
      RunsTo .pwm (answers ++ [a]) t (s.logged (entries ++ [answered 0x50#8 .ok (BitVec.ofNat 32 v)])) ∧
      ∀ j ∈ [0, 1, 3, 4, 5, 7, 8],
        RunsTo .pwm (answers.take j ++ [.fail, a]) t
          (State.logged { s with pwmErrcnt := raisedByOne s.pwmErrcnt }
            (entries.take j ++ ((entries.drop j).take 1).map TraceEntry.asFailed ++ [answered 0x50#8 .busError 0#32]))) ∧
  ∀ (hz : Nat) (s : State), hz < 24 ∨ 1526 < hz → hz ≤ 65535 →
    exec (.setfreq hz) s = .next (s.logged [answered 0x50#8 .rangeError 0#32])

/-- A frequency outside 24..1526 is answered `RANGE_ERROR` with no bus write; over the legal range the prescale is the value of rule R232,
does not rise with the frequency, goes from 253 to 3, and has the selected values of the table (45_pwm.md rules R232, R233). -/
def Obligations.PrescaleOverTheRange : Prop :=
  (∀ (hz : Nat) (s : State), hz < 24 ∨ 1526 < hz → hz ≤ 65535 →
    exec (.setfreq hz) s = .next (s.logged [answered 0x50#8 .rangeError 0#32])) ∧
  (∀ hz, 24 ≤ hz → hz ≤ 1526 →
    prescale hz = (25000000 + 2048 * hz) / (4096 * hz) - 1 ∧ 3 ≤ prescale hz ∧ prescale hz ≤ 253) ∧
  (∀ f g, 24 ≤ f → f ≤ g → g ≤ 1526 → prescale g ≤ prescale f) ∧
  [24, 25, 40, 50, 60, 100, 200, 333, 1000, 1525, 1526].map prescale = [253, 243, 152, 121, 101, 60, 30, 17, 5, 3, 3]

/-- `SETPWM` with legal ticks on a free slot starts and writes the four tick registers in ascending order; a tick above 4096 is answered
`RANGE_ERROR` and nothing else happens (45_pwm.md rules R240, R241, R231). -/
def Obligations.SetpwmWritesTheTicks : Prop :=
  (∀ (ch on off : Nat) (s : State), ch ≤ 15 → on ≤ 4096 → off ≤ 4096 → Free .pwm s →
    ∃ t, exec (.setpwm ch on off) s = .next t ∧
      Started .pwm 0x51#8 (.setpwm (BitVec.ofNat 8 (0x06 + 4 * ch)) (BitVec.ofNat 16 on) (BitVec.ofNat 16 off))
        (fun _ => True) s t ∧
      WritesTicks 0x51#8 ch on off 0#32 s t) ∧
  ∀ (ch on off : Nat) (s : State), ch ≤ 15 → on ≤ 8191 → off ≤ 8191 → 4096 < on ∨ 4096 < off →
    exec (.setpwm ch on off) s = .next (s.logged [answered 0x51#8 .rangeError 0#32])

/-- `FULLON` is `SETPWM ch, 4096, 0` and `FULLOFF` is `SETPWM ch, 0, 4096`, but for the opcode answered (45_pwm.md rules R245, R246). -/
def Obligations.FullonAndFulloffAreSetpwm : Prop :=
  ∀ (ch : Nat) (s : State), ch ≤ 15 → Free .pwm s →
    (∃ t, exec (.fullon ch) s = .next t ∧
      Started .pwm 0x52#8 (.fullon (BitVec.ofNat 8 (0x06 + 4 * ch)) 4096#16 0#16) (fun _ => True) s t ∧
      WritesTicks 0x52#8 ch 4096 0 0#32 s t) ∧
    ∃ t, exec (.fulloff ch) s = .next t ∧
      Started .pwm 0x53#8 (.fulloff (BitVec.ofNat 8 (0x06 + 4 * ch)) 0#16 4096#16) (fun _ => True) s t ∧
      WritesTicks 0x53#8 ch 0 4096 0#32 s t

/-- `SETDUTY` on a free slot: 0 % is full off, 100 % is full on, 1 to 99 % write on = 0 and off = the rounded duty, and the `off` tick is
answered; a percent outside 0..100 is answered `IGNORED` in every state and nothing else happens (45_pwm.md rules R250, R251, R252). -/
def Obligations.SetdutyWritesOrIgnores : Prop :=
  (∀ (ch : Nat) (pct : Int) (s : State), ch ≤ 15 → 0 ≤ pct → pct ≤ 100 → Free .pwm s →
    let on := if pct = 100 then 4096 else 0
    let off := if pct = 0 then 4096 else if pct = 100 then 0 else (4095 * pct.toNat + 50) / 100
    ∃ t, exec (.setduty ch pct) s = .next t ∧
      Started .pwm 0x54#8 (.setduty (BitVec.ofNat 8 (0x06 + 4 * ch)) (BitVec.ofNat 16 on) (BitVec.ofNat 16 off))
        (fun _ => True) s t ∧
      WritesTicks 0x54#8 ch on off (BitVec.ofNat 32 off) s t) ∧
  ∀ (ch : Nat) (pct : Int) (s : State), ch ≤ 15 → pct < 0 ∨ 100 < pct →
    exec (.setduty ch pct) s = .next (s.logged [answered 0x54#8 .ignored 0#32])

/-- `SLEEP`, `WAKE` and `RESTART` on a free slot each start, read MODE1, write it with their masks, wait the settle delay and answer `OK`
(45_pwm.md rules R258 to R262). -/
def Obligations.ModeOperationsWriteMode1 : Prop :=
  ∀ s : State, Free .pwm s →
    let slp := Config.params.mode1Sleep
    let rst := Config.params.mode1Restart
    (∃ t, exec .sleep s = .next t ∧ Started .pwm 0x55#8 (.sleep slp rst) (fun _ => True) s t ∧
      WritesMode 0x55#8 (fun tmp => (tmp &&& ~~~rst) ||| slp) s t) ∧
    (∃ t, exec .wake s = .next t ∧ Started .pwm 0x56#8 (.wake slp rst) (fun _ => True) s t ∧
      WritesMode 0x56#8 (fun tmp => tmp &&& ~~~slp &&& ~~~rst) s t) ∧
    ∃ t, exec .restart s = .next t ∧ Started .pwm 0x57#8 (.restart slp rst) (fun _ => True) s t ∧
      WritesMode 0x57#8 (fun tmp => (tmp &&& ~~~slp) ||| rst) s t

/-- The bytes written to MODE1 by sleep, wake and restart: none has both the sleep bit and the restart bit, sleep sets the one, restart
the other, wake neither, and every bit outside the two masks is written back as read (45_pwm.md rule R259). -/
def Obligations.Mode1MasksExclude : Prop :=
  ∀ tmp : Byte,
    let slp := Config.params.mode1Sleep
    let rst := Config.params.mode1Restart
    (sleepByte slp rst tmp = (tmp &&& ~~~rst) ||| slp ∧ wakeByte slp rst tmp = tmp &&& ~~~slp &&& ~~~rst ∧
      restartByte slp rst tmp = (tmp &&& ~~~slp) ||| rst) ∧
    (sleepByte slp rst tmp &&& slp = slp ∧ sleepByte slp rst tmp &&& rst = 0#8) ∧
    (wakeByte slp rst tmp &&& slp = 0#8 ∧ wakeByte slp rst tmp &&& rst = 0#8) ∧
    (restartByte slp rst tmp &&& slp = 0#8 ∧ restartByte slp rst tmp &&& rst = rst) ∧
    ∀ byte ∈ [sleepByte slp rst tmp, wakeByte slp rst tmp, restartByte slp rst tmp],
      byte &&& ~~~(slp ||| rst) = tmp &&& ~~~(slp ||| rst)

/-- The tick encoding: the low byte and the high byte of a tick; the sentinel 4096 is bit 4 of the high byte with all count bits zero, and
only it (30_encoding.md rule R121). -/
def Obligations.TickBytes : Prop :=
  ∀ v : Nat, v ≤ 4096 →
    (lo8 (BitVec.ofNat 16 v)).toNat = v % 256 ∧ (hi8 (BitVec.ofNat 16 v)).toNat = v / 256 ∧
    ((hi8 (BitVec.ofNat 16 v)).getLsbD 4 = true ↔ v = 4096) ∧
    (v = 4096 → lo8 (BitVec.ofNat 16 v) = 0x00#8 ∧ hi8 (BitVec.ofNat 16 v) = 0x10#8)

/-! ### Beside the block -/

/-- The sweep host keeps its position, and every position it commands, within its bounds, from before its start on and at every
transition, and no `SETPWM` of it is refused for range (46_sweep_host.md rules R280, R284, R285, R291). Two clauses rest on the model's
choice of log entry 20, not on a rule: that the host is within the bounds before `start()`, and that `start()` puts every host within
them, one with an advance in flight out of bounds too, since the model's `start()` gives up what is unanswered. After `stop()`, until a
`start()`, the position does not change and no command is issued (rule R290); that an advance in flight commits nothing then is the
model's reading of rule R290 (log entry 21). -/
def Obligations.SweepStaysInBounds : Prop :=
  ∀ c : SweepParams,
    (c.legal = true → (Sweep.initial c).inBounds c = true ∧
      ∀ (i : SweepInput) (h : Sweep), i = .start ∨ h.inBounds c = true →
        (h.handle c i).1.inBounds c = true ∧
        ∀ j, .issue j ∈ (h.handle c i).2 →
          ∃ off : Nat, j = .setpwm c.channel 0 off ∧ c.minServo ≤ off ∧ (off : Int) ≤ c.maxServo ∧
            operandRefusal Config.params j = none) ∧
    ∀ (i : SweepInput) (h : Sweep), h.stopped = true → i ≠ .start →
      (h.handle c i).1.stopped = true ∧ (h.handle c i).1.currentPosition = h.currentPosition ∧
        ∀ j, .issue j ∉ (h.handle c i).2
end

