-- ==== Sys2Proof/Laws/Decode.lean ====
section
/-!
SUPPORT. Decoding finds exactly the row that a frame matches (30_encoding.md rule R110), and what the fields of an encoded frame
are.
-/

namespace Sys2Proof

/-! ### The table -/

theorem opcodeTable_length : opcodeTable.length = 24 := rfl

/-- The opcodes of the rows differ (rule R110, "disjoint"). -/
theorem opcodeTable_opcodes_distinct : opcodeTable.Pairwise fun a b => opcodeOf a.pat ≠ opcodeOf b.pat := by decide

/-- Every mask covers the opcode byte `f[39:32]` (rule R110). -/
theorem opcodeTable_mask_covers_opcode : ∀ r ∈ opcodeTable, r.mask &&& 0xFF00000000#40 = 0xFF00000000#40 := by decide

/-- The opcode byte depends on the top eight bits only. -/
theorem opcodeOf_and_top (f : Frame) : opcodeOf (f &&& 0xFF00000000#40) = opcodeOf f := by
  apply BitVec.eq_of_getLsbD_eq
  intro i hi
  have : BitVec.getLsbD 0xFF00000000#40 (32 + i) = true := by revert i; decide
  simp [opcodeOf, BitVec.getLsbD_extractLsb', this]

/-- A frame that matches a row has the row's opcode. -/
theorem opcodeOf_of_matches {r : OpcodeRow} (hr : r ∈ opcodeTable) {f : Frame} (h : r.matches f = true) :
    opcodeOf f = opcodeOf r.pat := by
  have hm := opcodeTable_mask_covers_opcode r hr
  have hf : f &&& r.mask = r.pat := by simpa [OpcodeRow.matches] using h
  rw [← opcodeOf_and_top f, ← opcodeOf_and_top r.pat, ← hf, BitVec.and_assoc, hm]

/-- A list whose elements have distinct keys finds the one element that a test, which fixes the key, accepts. -/
theorem find?_of_key {α κ : Type} (key : α → κ) (test : α → Bool) :
    ∀ (l : List α) (r : α), l.Pairwise (fun a b => key a ≠ key b) → r ∈ l → test r = true →
      (∀ a ∈ l, test a = true → key a = key r) → l.find? test = some r
  | [], r, _, hr, _, _ => by simp at hr
  | a :: l, r, hp, hr, ht, hk => by
    rw [List.find?_cons]
    rcases List.mem_cons.mp hr with rfl | hr'
    · simp [ht]
    · have hne : test a = false := by
        by_contra hc
        have ha : test a = true := by simpa using hc
        exact (List.pairwise_cons.mp hp).1 r hr' (hk a (by simp) ha)
      simp only [hne]
      exact find?_of_key key test l r (List.pairwise_cons.mp hp).2 hr' ht fun b hb => hk b (by simp [hb])

/-- A frame that matches a row decodes to what the row reads. -/
theorem decode_of_matches {r : OpcodeRow} (hr : r ∈ opcodeTable) {f : Frame} (h : r.matches f = true) :
    decode f = .ok (r.read f) := by
  have same : ∀ a ∈ opcodeTable, a.matches f = true → opcodeOf a.pat = opcodeOf r.pat := fun a ha hm =>
    (opcodeOf_of_matches ha hm).symm.trans (opcodeOf_of_matches hr h)
  have : opcodeTable.find? (fun r => r.matches f) = some r :=
    find?_of_key (fun r : OpcodeRow => opcodeOf r.pat) (fun r => r.matches f) opcodeTable r
      opcodeTable_opcodes_distinct hr h same
  simp [decode, this]

/-- The row of a given place in the table. -/
theorem decode_of_row (n : Nat) (hn : n < opcodeTable.length) {f : Frame} (h : opcodeTable[n].matches f = true) :
    decode f = .ok (opcodeTable[n].read f) :=
  decode_of_matches (List.getElem_mem hn) h

/-- What decodes matches a row, and is what the row reads. -/
theorem decode_ok_row {f : Frame} {i : Instr} (h : decode f = .ok i) :
    ∃ r ∈ opcodeTable, r.matches f = true ∧ i = r.read f := by
  unfold decode at h
  split at h
  · rename_i r hr
    cases h
    exact ⟨r, List.mem_of_find?_eq_some hr, by simpa using List.find?_some hr, rfl⟩
  · split at h <;> cases h

/-- A frame that matches no row is rejected. -/
theorem decode_error_of_no_match {f : Frame} (h : ∀ r ∈ opcodeTable, r.matches f = false) : ∃ e, decode f = .error e := by
  have : opcodeTable.find? (fun r => r.matches f) = none := by
    rw [List.find?_eq_none]
    intro r hr
    simp [h r hr]
  simp only [decode, this]
  split <;> exact ⟨_, rfl⟩

/-! ### Bytes -/

theorem frameOfBytes_frameBytes (f : Frame) :
    frameOfBytes (f.extractLsb' 32 8) (f.extractLsb' 24 8) (f.extractLsb' 16 8) (f.extractLsb' 8 8) (f.extractLsb' 0 8) = f := by
  apply BitVec.eq_of_getLsbD_eq
  intro i hi
  simp only [frameOfBytes, BitVec.getLsbD_append, BitVec.getLsbD_extractLsb']
  interval_cases i <;> simp

/-- Decoding the bytes of a frame is decoding the frame (rule R100). -/
theorem decodeBytes_frameBytes (f : Frame) : decodeBytes (frameBytes f) = decode f := by
  simp [decodeBytes, frameBytes, frameOfBytes_frameBytes]

/-- Byte 0 of an encoded command is its opcode (rule R100). -/
theorem opcodeOf_encode (i : Instr) : opcodeOf (encode i) = i.opcode := by
  apply BitVec.eq_of_getLsbD_eq
  intro k hk
  simp only [opcodeOf, encode, BitVec.getLsbD_extractLsb', BitVec.getLsbD_append]
  have : ¬ 32 + k < 32 := by omega
  simp [hk]

/-! ### Slots and kinds -/

@[simp] theorem slotOfBits_bits (d : Slot) : slotOfBits d.bits = d := by cases d <;> rfl

@[simp] theorem bits_slotOfBits (b : BitVec 2) : (slotOfBits b).bits = b := by revert b; decide

end Sys2Proof
end

