-- ==== Sys2Proof/Laws/Operands.lean ====
section
/-!
SUPPORT. What the operand functions compute, in the terms the statements use: bytes of tick values, channel registers, the
prescale, the saturating counters, the ready bits.
-/

namespace Sys2Proof.Machine

/-! ### Bytes (00_scope.md rule R13) -/

theorem zext16_join16 (hi lo : Byte) : zext16 (join16 hi lo) = reading hi lo := rfl

theorem toNat_lo8 (v : Half) : (lo8 v).toNat = v.toNat % 256 := by simp [lo8]

theorem toNat_hi8 (v : Half) : (hi8 v).toNat = v.toNat / 256 := by
  simp only [hi8, BitVec.toNat_setWidth, BitVec.toNat_ushiftRight, Nat.shiftRight_eq_div_pow]
  omega

theorem toNat_join16 (hi lo : Byte) : (join16 hi lo).toNat = hi.toNat * 256 + lo.toNat := by
  have h : join16 hi lo = hi ++ lo := by
    apply BitVec.eq_of_getLsbD_eq
    intro i hi'
    simp only [join16, BitVec.getLsbD_append, BitVec.getLsbD_or, BitVec.getLsbD_shiftLeft, BitVec.getLsbD_setWidth]
    by_cases h8 : i < 8
    · simp [h8, hi']
    · have : i - 8 < 16 := by omega
      simp [h8, hi', this, BitVec.getLsbD_of_ge lo i (by omega)]
  rw [h, BitVec.toNat_append, Nat.shiftLeft_eq, Nat.mul_comm, ← Nat.two_pow_add_eq_or_of_lt lo.isLt]

theorem lo8_ofNat (v : Nat) : lo8 (BitVec.ofNat 16 v) = BitVec.ofNat 8 (v % 256) := by
  apply BitVec.eq_of_toNat_eq
  rw [toNat_lo8]
  simp only [BitVec.toNat_ofNat]
  omega

theorem hi8_ofNat (v : Nat) (h : v < 65536) : hi8 (BitVec.ofNat 16 v) = BitVec.ofNat 8 (v / 256) := by
  apply BitVec.eq_of_toNat_eq
  rw [toNat_hi8]
  simp only [BitVec.toNat_ofNat]
  omega

/-- A result register never holds more than 65535 after a reading (10_state.md rule R26). -/
theorem toNat_zext16_le (v : Half) : (zext16 v).toNat ≤ 65535 := by
  have := v.isLt
  simp only [zext16, BitVec.toNat_setWidth]
  omega

theorem zext16_ne_absent (v : Half) : zext16 v ≠ absentReading := by
  intro h
  have := toNat_zext16_le v
  rw [h] at this
  exact absurd this (by decide)

/-! ### Channel registers (45_pwm.md rule R241) -/

theorem channelBase_eq (ch : Nat) : channelBase ch = BitVec.ofNat 8 (0x06 + 4 * ch) := rfl

theorem channelBase_add (ch : Nat) (j : Nat) :
    channelBase ch + BitVec.ofNat 8 j = BitVec.ofNat 8 (0x06 + j + 4 * ch) := by
  rw [channelBase_eq, ← BitVec.ofNat_add]
  congr 1
  omega

/-- The four transactions that a channel write issues are F13 to F16. -/
theorem tickFrames_eq (ch on off : Nat) (hon : on < 65536) (hoff : off < 65536) :
    tickFrames ch on off =
      [frameOnLow (channelBase ch) (BitVec.ofNat 16 on), frameOnHigh (channelBase ch) (BitVec.ofNat 16 on),
       frameOffLow (channelBase ch) (BitVec.ofNat 16 off), frameOffHigh (channelBase ch) (BitVec.ofNat 16 off)] := by
  have h1 := channelBase_add ch 1
  have h2 := channelBase_add ch 2
  have h3 := channelBase_add ch 3
  simp only [frameOnLow, frameOnHigh, frameOffLow, frameOffHigh, regWrite, lo8_ofNat, hi8_ofNat on hon,
    hi8_ofNat off hoff, h1, h2, h3]
  rfl

/-! ### The prescale (45_pwm.md rules R232, R233) -/

theorem hzLegal_iff (hz : Nat) : hzLegal hz = true ↔ 24 ≤ hz ∧ hz ≤ 1526 := by
  rw [hzLegal, Bool.and_eq_true, decide_eq_true_eq, decide_eq_true_eq]
  rfl

theorem prescale_eq (hz : Nat) : prescale hz = (25000000 + 2048 * hz) / (4096 * hz) - 1 := rfl

theorem tickLegal_iff (v : Nat) : tickLegal v = true ↔ v ≤ 4096 := decide_eq_true_iff

theorem unitsLegal_iff (v : Nat) : unitsLegal v = true ↔ v ≤ 20 := decide_eq_true_iff

/-! ### The checksum polynomial (44_codec_crc.md rules R211, R212) -/

theorem crcPolyLow_eq : crcPolyLow = 0x31#8 := by decide

theorem crcDivisor_eq : crcDivisor = 0x988000#24 := by decide

/-! ### Counters and ready bits -/

theorem saturatingSucc_eq (c : Half) : saturatingSucc c = raisedByOne c := by
  apply BitVec.eq_of_toNat_eq
  have hc := c.isLt
  unfold saturatingSucc raisedByOne
  split
  · next h => subst h; rfl
  · next h =>
    have : c.toNat ≠ 65535 := fun h' => h (BitVec.eq_of_toNat_eq h')
    simp only [BitVec.toNat_add, BitVec.toNat_ofNat]
    omega

theorem isReady_eq (k : Kind) (status : Byte) : isReady k status = showsReady k status := by
  cases k <;> revert status <;> decide

theorem triggerByte_eq (k : Kind) (tmp : Byte) : tmp ||| trigMask k = triggerByte k tmp := by cases k <;> rfl

theorem resultOf_eq (k : Kind) : resultRegister k = resultOf k := by cases k <;> rfl

end Sys2Proof.Machine
end

