-- ==== Sys2Proof/Laws/State.lean ====
section
/-!
SUPPORT. The small lemmas of the state's updates: what each field holds after each named update, true by definition; the
register families read back what was written.
-/

namespace Sys2Proof.Machine

/-! ### Register families -/

section Families

variable {α : Type}

@[simp] theorem PerSlot.get_adc (v : PerSlot α) : v.get .adc = v.adc := rfl
@[simp] theorem PerSlot.get_pxa (v : PerSlot α) : v.get .pxa = v.pxa := rfl
@[simp] theorem PerSlot.get_usr (v : PerSlot α) : v.get .usr = v.usr := rfl
@[simp] theorem PerSlot.get_pwm (v : PerSlot α) : v.get .pwm = v.pwm := rfl
@[simp] theorem PerSensor.get_adc (v : PerSensor α) : v.get .adc = v.adc := rfl
@[simp] theorem PerSensor.get_pxa (v : PerSensor α) : v.get .pxa = v.pxa := rfl
@[simp] theorem PerSensor.get_usr (v : PerSensor α) : v.get .usr = v.usr := rfl

@[simp] theorem PerSlot.set_adc_adc (v : PerSlot α) (x : α) : (v.set .adc x).adc = x := rfl
@[simp] theorem PerSlot.set_adc_pxa (v : PerSlot α) (x : α) : (v.set .adc x).pxa = v.pxa := rfl
@[simp] theorem PerSlot.set_adc_usr (v : PerSlot α) (x : α) : (v.set .adc x).usr = v.usr := rfl
@[simp] theorem PerSlot.set_adc_pwm (v : PerSlot α) (x : α) : (v.set .adc x).pwm = v.pwm := rfl
@[simp] theorem PerSlot.set_pxa_adc (v : PerSlot α) (x : α) : (v.set .pxa x).adc = v.adc := rfl
@[simp] theorem PerSlot.set_pxa_pxa (v : PerSlot α) (x : α) : (v.set .pxa x).pxa = x := rfl
@[simp] theorem PerSlot.set_pxa_usr (v : PerSlot α) (x : α) : (v.set .pxa x).usr = v.usr := rfl
@[simp] theorem PerSlot.set_pxa_pwm (v : PerSlot α) (x : α) : (v.set .pxa x).pwm = v.pwm := rfl
@[simp] theorem PerSlot.set_usr_adc (v : PerSlot α) (x : α) : (v.set .usr x).adc = v.adc := rfl
@[simp] theorem PerSlot.set_usr_pxa (v : PerSlot α) (x : α) : (v.set .usr x).pxa = v.pxa := rfl
@[simp] theorem PerSlot.set_usr_usr (v : PerSlot α) (x : α) : (v.set .usr x).usr = x := rfl
@[simp] theorem PerSlot.set_usr_pwm (v : PerSlot α) (x : α) : (v.set .usr x).pwm = v.pwm := rfl
@[simp] theorem PerSlot.set_pwm_adc (v : PerSlot α) (x : α) : (v.set .pwm x).adc = v.adc := rfl
@[simp] theorem PerSlot.set_pwm_pxa (v : PerSlot α) (x : α) : (v.set .pwm x).pxa = v.pxa := rfl
@[simp] theorem PerSlot.set_pwm_usr (v : PerSlot α) (x : α) : (v.set .pwm x).usr = v.usr := rfl
@[simp] theorem PerSlot.set_pwm_pwm (v : PerSlot α) (x : α) : (v.set .pwm x).pwm = x := rfl

@[simp] theorem PerSlot.get_set_same (v : PerSlot α) (d : Slot) (x : α) : (v.set d x).get d = x := by cases d <;> rfl

@[simp] theorem PerSlot.get_set_ne (v : PerSlot α) (d e : Slot) (x : α) (h : e ≠ d) : (v.set d x).get e = v.get e := by
  cases d <;> cases e <;> first | rfl | exact absurd rfl h

theorem PerSlot.get_set (v : PerSlot α) (d e : Slot) (x : α) : (v.set d x).get e = if e = d then x else v.get e := by
  split <;> simp_all

@[simp] theorem PerSlot.set_set (v : PerSlot α) (d : Slot) (x y : α) : (v.set d x).set d y = v.set d y := by cases d <;> rfl

@[simp] theorem PerSlot.set_get_self (v : PerSlot α) (d : Slot) : v.set d (v.get d) = v := by cases d <;> rfl

@[simp] theorem PerSensor.set_adc_adc (v : PerSensor α) (x : α) : (v.set .adc x).adc = x := rfl
@[simp] theorem PerSensor.set_adc_pxa (v : PerSensor α) (x : α) : (v.set .adc x).pxa = v.pxa := rfl
@[simp] theorem PerSensor.set_adc_usr (v : PerSensor α) (x : α) : (v.set .adc x).usr = v.usr := rfl
@[simp] theorem PerSensor.set_pxa_adc (v : PerSensor α) (x : α) : (v.set .pxa x).adc = v.adc := rfl
@[simp] theorem PerSensor.set_pxa_pxa (v : PerSensor α) (x : α) : (v.set .pxa x).pxa = x := rfl
@[simp] theorem PerSensor.set_pxa_usr (v : PerSensor α) (x : α) : (v.set .pxa x).usr = v.usr := rfl
@[simp] theorem PerSensor.set_usr_adc (v : PerSensor α) (x : α) : (v.set .usr x).adc = v.adc := rfl
@[simp] theorem PerSensor.set_usr_pxa (v : PerSensor α) (x : α) : (v.set .usr x).pxa = v.pxa := rfl
@[simp] theorem PerSensor.set_usr_usr (v : PerSensor α) (x : α) : (v.set .usr x).usr = x := rfl

@[simp] theorem PerSensor.get_set_same (v : PerSensor α) (d : Sensor) (x : α) : (v.set d x).get d = x := by cases d <;> rfl

@[simp] theorem PerSensor.get_set_ne (v : PerSensor α) (d e : Sensor) (x : α) (h : e ≠ d) : (v.set d x).get e = v.get e := by
  cases d <;> cases e <;> first | rfl | exact absurd rfl h

theorem PerSensor.get_set (v : PerSensor α) (d e : Sensor) (x : α) : (v.set d x).get e = if e = d then x else v.get e := by
  split <;> simp_all

@[simp] theorem PerSensor.set_set (v : PerSensor α) (d : Sensor) (x y : α) : (v.set d x).set d y = v.set d y := by cases d <;> rfl

@[simp] theorem PerSensor.set_get_self (v : PerSensor α) (d : Sensor) : v.set d (v.get d) = v := by cases d <;> rfl

end Families

/-! ### `setGuard` -/

@[simp] theorem State.setGuard_guard (s : State) (d : Slot) (b : Bool) : (s.setGuard d b).guard = s.guard.set d b := rfl
@[simp] theorem State.setGuard_timerEn (s : State) (d : Slot) (b : Bool) : (s.setGuard d b).timerEn = s.timerEn := rfl
@[simp] theorem State.setGuard_stopped (s : State) (d : Slot) (b : Bool) : (s.setGuard d b).stopped = s.stopped := rfl
@[simp] theorem State.setGuard_interval (s : State) (d : Slot) (b : Bool) : (s.setGuard d b).interval = s.interval := rfl
@[simp] theorem State.setGuard_res (s : State) (d : Slot) (b : Bool) : (s.setGuard d b).res = s.res := rfl
@[simp] theorem State.setGuard_resValid (s : State) (d : Slot) (b : Bool) : (s.setGuard d b).resValid = s.resValid := rfl
@[simp] theorem State.setGuard_lastStatus (s : State) (d : Slot) (b : Bool) : (s.setGuard d b).lastStatus = s.lastStatus := rfl
@[simp] theorem State.setGuard_adcCurCh (s : State) (d : Slot) (b : Bool) : (s.setGuard d b).adcCurCh = s.adcCurCh := rfl
@[simp] theorem State.setGuard_crcOk (s : State) (d : Slot) (b : Bool) : (s.setGuard d b).crcOk = s.crcOk := rfl
@[simp] theorem State.setGuard_skipCount (s : State) (d : Slot) (b : Bool) : (s.setGuard d b).skipCount = s.skipCount := rfl
@[simp] theorem State.setGuard_pwmErrcnt (s : State) (d : Slot) (b : Bool) : (s.setGuard d b).pwmErrcnt = s.pwmErrcnt := rfl
@[simp] theorem State.setGuard_adcChmask (s : State) (d : Slot) (b : Bool) : (s.setGuard d b).adcChmask = s.adcChmask := rfl
@[simp] theorem State.setGuard_pxaKinds (s : State) (d : Slot) (b : Bool) : (s.setGuard d b).pxaKinds = s.pxaKinds := rfl
@[simp] theorem State.setGuard_pollMaxAmb (s : State) (d : Slot) (b : Bool) : (s.setGuard d b).pollMaxAmb = s.pollMaxAmb := rfl
@[simp] theorem State.setGuard_pollMaxProx (s : State) (d : Slot) (b : Bool) : (s.setGuard d b).pollMaxProx = s.pollMaxProx := rfl
@[simp] theorem State.setGuard_pollGapMs (s : State) (d : Slot) (b : Bool) : (s.setGuard d b).pollGapMs = s.pollGapMs := rfl
@[simp] theorem State.setGuard_seq (s : State) (d : Slot) (b : Bool) : (s.setGuard d b).seq = s.seq := rfl
@[simp] theorem State.setGuard_trace (s : State) (d : Slot) (b : Bool) : (s.setGuard d b).trace = s.trace := rfl
@[simp] theorem State.setGuard_inputs (s : State) (d : Slot) (b : Bool) : (s.setGuard d b).inputs = s.inputs := rfl
@[simp] theorem State.setGuard_turn (s : State) (d : Slot) (b : Bool) : (s.setGuard d b).turn = s.turn := rfl

/-! ### `setSeq` -/

@[simp] theorem State.setSeq_guard (s : State) (d : Slot) (q : Seq) : (s.setSeq d q).guard = s.guard := rfl
@[simp] theorem State.setSeq_timerEn (s : State) (d : Slot) (q : Seq) : (s.setSeq d q).timerEn = s.timerEn := rfl
@[simp] theorem State.setSeq_stopped (s : State) (d : Slot) (q : Seq) : (s.setSeq d q).stopped = s.stopped := rfl
@[simp] theorem State.setSeq_interval (s : State) (d : Slot) (q : Seq) : (s.setSeq d q).interval = s.interval := rfl
@[simp] theorem State.setSeq_res (s : State) (d : Slot) (q : Seq) : (s.setSeq d q).res = s.res := rfl
@[simp] theorem State.setSeq_resValid (s : State) (d : Slot) (q : Seq) : (s.setSeq d q).resValid = s.resValid := rfl
@[simp] theorem State.setSeq_lastStatus (s : State) (d : Slot) (q : Seq) : (s.setSeq d q).lastStatus = s.lastStatus := rfl
@[simp] theorem State.setSeq_adcCurCh (s : State) (d : Slot) (q : Seq) : (s.setSeq d q).adcCurCh = s.adcCurCh := rfl
@[simp] theorem State.setSeq_crcOk (s : State) (d : Slot) (q : Seq) : (s.setSeq d q).crcOk = s.crcOk := rfl
@[simp] theorem State.setSeq_skipCount (s : State) (d : Slot) (q : Seq) : (s.setSeq d q).skipCount = s.skipCount := rfl
@[simp] theorem State.setSeq_pwmErrcnt (s : State) (d : Slot) (q : Seq) : (s.setSeq d q).pwmErrcnt = s.pwmErrcnt := rfl
@[simp] theorem State.setSeq_adcChmask (s : State) (d : Slot) (q : Seq) : (s.setSeq d q).adcChmask = s.adcChmask := rfl
@[simp] theorem State.setSeq_pxaKinds (s : State) (d : Slot) (q : Seq) : (s.setSeq d q).pxaKinds = s.pxaKinds := rfl
@[simp] theorem State.setSeq_pollMaxAmb (s : State) (d : Slot) (q : Seq) : (s.setSeq d q).pollMaxAmb = s.pollMaxAmb := rfl
@[simp] theorem State.setSeq_pollMaxProx (s : State) (d : Slot) (q : Seq) : (s.setSeq d q).pollMaxProx = s.pollMaxProx := rfl
@[simp] theorem State.setSeq_pollGapMs (s : State) (d : Slot) (q : Seq) : (s.setSeq d q).pollGapMs = s.pollGapMs := rfl
@[simp] theorem State.setSeq_seq (s : State) (d : Slot) (q : Seq) : (s.setSeq d q).seq = s.seq.set d q := rfl
@[simp] theorem State.setSeq_trace (s : State) (d : Slot) (q : Seq) : (s.setSeq d q).trace = s.trace := rfl
@[simp] theorem State.setSeq_inputs (s : State) (d : Slot) (q : Seq) : (s.setSeq d q).inputs = s.inputs := rfl
@[simp] theorem State.setSeq_turn (s : State) (d : Slot) (q : Seq) : (s.setSeq d q).turn = s.turn := rfl

/-! ### `goto` -/

@[simp] theorem State.goto_guard (s : State) (d : Slot) (k : Nat) : (s.goto d k).guard = s.guard := rfl
@[simp] theorem State.goto_timerEn (s : State) (d : Slot) (k : Nat) : (s.goto d k).timerEn = s.timerEn := rfl
@[simp] theorem State.goto_stopped (s : State) (d : Slot) (k : Nat) : (s.goto d k).stopped = s.stopped := rfl
@[simp] theorem State.goto_interval (s : State) (d : Slot) (k : Nat) : (s.goto d k).interval = s.interval := rfl
@[simp] theorem State.goto_res (s : State) (d : Slot) (k : Nat) : (s.goto d k).res = s.res := rfl
@[simp] theorem State.goto_resValid (s : State) (d : Slot) (k : Nat) : (s.goto d k).resValid = s.resValid := rfl
@[simp] theorem State.goto_lastStatus (s : State) (d : Slot) (k : Nat) : (s.goto d k).lastStatus = s.lastStatus := rfl
@[simp] theorem State.goto_adcCurCh (s : State) (d : Slot) (k : Nat) : (s.goto d k).adcCurCh = s.adcCurCh := rfl
@[simp] theorem State.goto_crcOk (s : State) (d : Slot) (k : Nat) : (s.goto d k).crcOk = s.crcOk := rfl
@[simp] theorem State.goto_skipCount (s : State) (d : Slot) (k : Nat) : (s.goto d k).skipCount = s.skipCount := rfl
@[simp] theorem State.goto_pwmErrcnt (s : State) (d : Slot) (k : Nat) : (s.goto d k).pwmErrcnt = s.pwmErrcnt := rfl
@[simp] theorem State.goto_adcChmask (s : State) (d : Slot) (k : Nat) : (s.goto d k).adcChmask = s.adcChmask := rfl
@[simp] theorem State.goto_pxaKinds (s : State) (d : Slot) (k : Nat) : (s.goto d k).pxaKinds = s.pxaKinds := rfl
@[simp] theorem State.goto_pollMaxAmb (s : State) (d : Slot) (k : Nat) : (s.goto d k).pollMaxAmb = s.pollMaxAmb := rfl
@[simp] theorem State.goto_pollMaxProx (s : State) (d : Slot) (k : Nat) : (s.goto d k).pollMaxProx = s.pollMaxProx := rfl
@[simp] theorem State.goto_pollGapMs (s : State) (d : Slot) (k : Nat) : (s.goto d k).pollGapMs = s.pollGapMs := rfl
@[simp] theorem State.goto_seq (s : State) (d : Slot) (k : Nat) : (s.goto d k).seq = s.seq.set d { s.seq.get d with step := .at k } := rfl
@[simp] theorem State.goto_trace (s : State) (d : Slot) (k : Nat) : (s.goto d k).trace = s.trace := rfl
@[simp] theorem State.goto_inputs (s : State) (d : Slot) (k : Nat) : (s.goto d k).inputs = s.inputs := rfl
@[simp] theorem State.goto_turn (s : State) (d : Slot) (k : Nat) : (s.goto d k).turn = s.turn := rfl

/-! ### `setTmp` -/

@[simp] theorem State.setTmp_guard (s : State) (d : Slot) (v : Byte) : (s.setTmp d v).guard = s.guard := rfl
@[simp] theorem State.setTmp_timerEn (s : State) (d : Slot) (v : Byte) : (s.setTmp d v).timerEn = s.timerEn := rfl
@[simp] theorem State.setTmp_stopped (s : State) (d : Slot) (v : Byte) : (s.setTmp d v).stopped = s.stopped := rfl
@[simp] theorem State.setTmp_interval (s : State) (d : Slot) (v : Byte) : (s.setTmp d v).interval = s.interval := rfl
@[simp] theorem State.setTmp_res (s : State) (d : Slot) (v : Byte) : (s.setTmp d v).res = s.res := rfl
@[simp] theorem State.setTmp_resValid (s : State) (d : Slot) (v : Byte) : (s.setTmp d v).resValid = s.resValid := rfl
@[simp] theorem State.setTmp_lastStatus (s : State) (d : Slot) (v : Byte) : (s.setTmp d v).lastStatus = s.lastStatus := rfl
@[simp] theorem State.setTmp_adcCurCh (s : State) (d : Slot) (v : Byte) : (s.setTmp d v).adcCurCh = s.adcCurCh := rfl
@[simp] theorem State.setTmp_crcOk (s : State) (d : Slot) (v : Byte) : (s.setTmp d v).crcOk = s.crcOk := rfl
@[simp] theorem State.setTmp_skipCount (s : State) (d : Slot) (v : Byte) : (s.setTmp d v).skipCount = s.skipCount := rfl
@[simp] theorem State.setTmp_pwmErrcnt (s : State) (d : Slot) (v : Byte) : (s.setTmp d v).pwmErrcnt = s.pwmErrcnt := rfl
@[simp] theorem State.setTmp_adcChmask (s : State) (d : Slot) (v : Byte) : (s.setTmp d v).adcChmask = s.adcChmask := rfl
@[simp] theorem State.setTmp_pxaKinds (s : State) (d : Slot) (v : Byte) : (s.setTmp d v).pxaKinds = s.pxaKinds := rfl
@[simp] theorem State.setTmp_pollMaxAmb (s : State) (d : Slot) (v : Byte) : (s.setTmp d v).pollMaxAmb = s.pollMaxAmb := rfl
@[simp] theorem State.setTmp_pollMaxProx (s : State) (d : Slot) (v : Byte) : (s.setTmp d v).pollMaxProx = s.pollMaxProx := rfl
@[simp] theorem State.setTmp_pollGapMs (s : State) (d : Slot) (v : Byte) : (s.setTmp d v).pollGapMs = s.pollGapMs := rfl
@[simp] theorem State.setTmp_seq (s : State) (d : Slot) (v : Byte) : (s.setTmp d v).seq = s.seq.set d { s.seq.get d with tmp := v } := rfl
@[simp] theorem State.setTmp_trace (s : State) (d : Slot) (v : Byte) : (s.setTmp d v).trace = s.trace := rfl
@[simp] theorem State.setTmp_inputs (s : State) (d : Slot) (v : Byte) : (s.setTmp d v).inputs = s.inputs := rfl
@[simp] theorem State.setTmp_turn (s : State) (d : Slot) (v : Byte) : (s.setTmp d v).turn = s.turn := rfl

/-! ### `raise` -/

@[simp] theorem State.raise_guard (s : State) (d : Slot) (e : Pending) : (s.raise d e).guard = s.guard := rfl
@[simp] theorem State.raise_timerEn (s : State) (d : Slot) (e : Pending) : (s.raise d e).timerEn = s.timerEn := rfl
@[simp] theorem State.raise_stopped (s : State) (d : Slot) (e : Pending) : (s.raise d e).stopped = s.stopped := rfl
@[simp] theorem State.raise_interval (s : State) (d : Slot) (e : Pending) : (s.raise d e).interval = s.interval := rfl
@[simp] theorem State.raise_res (s : State) (d : Slot) (e : Pending) : (s.raise d e).res = s.res := rfl
@[simp] theorem State.raise_resValid (s : State) (d : Slot) (e : Pending) : (s.raise d e).resValid = s.resValid := rfl
@[simp] theorem State.raise_lastStatus (s : State) (d : Slot) (e : Pending) : (s.raise d e).lastStatus = s.lastStatus := rfl
@[simp] theorem State.raise_adcCurCh (s : State) (d : Slot) (e : Pending) : (s.raise d e).adcCurCh = s.adcCurCh := rfl
@[simp] theorem State.raise_crcOk (s : State) (d : Slot) (e : Pending) : (s.raise d e).crcOk = s.crcOk := rfl
@[simp] theorem State.raise_skipCount (s : State) (d : Slot) (e : Pending) : (s.raise d e).skipCount = s.skipCount := rfl
@[simp] theorem State.raise_pwmErrcnt (s : State) (d : Slot) (e : Pending) : (s.raise d e).pwmErrcnt = s.pwmErrcnt := rfl
@[simp] theorem State.raise_adcChmask (s : State) (d : Slot) (e : Pending) : (s.raise d e).adcChmask = s.adcChmask := rfl
@[simp] theorem State.raise_pxaKinds (s : State) (d : Slot) (e : Pending) : (s.raise d e).pxaKinds = s.pxaKinds := rfl
@[simp] theorem State.raise_pollMaxAmb (s : State) (d : Slot) (e : Pending) : (s.raise d e).pollMaxAmb = s.pollMaxAmb := rfl
@[simp] theorem State.raise_pollMaxProx (s : State) (d : Slot) (e : Pending) : (s.raise d e).pollMaxProx = s.pollMaxProx := rfl
@[simp] theorem State.raise_pollGapMs (s : State) (d : Slot) (e : Pending) : (s.raise d e).pollGapMs = s.pollGapMs := rfl
@[simp] theorem State.raise_seq (s : State) (d : Slot) (e : Pending) : (s.raise d e).seq = s.seq.set d { s.seq.get d with exc := e, step := .failExit } := rfl
@[simp] theorem State.raise_trace (s : State) (d : Slot) (e : Pending) : (s.raise d e).trace = s.trace := rfl
@[simp] theorem State.raise_inputs (s : State) (d : Slot) (e : Pending) : (s.raise d e).inputs = s.inputs := rfl
@[simp] theorem State.raise_turn (s : State) (d : Slot) (e : Pending) : (s.raise d e).turn = s.turn := rfl

/-! ### `release` -/

@[simp] theorem State.release_guard (s : State) (d : Slot) : (s.release d).guard = s.guard.set d false := rfl
@[simp] theorem State.release_timerEn (s : State) (d : Slot) : (s.release d).timerEn = s.timerEn := rfl
@[simp] theorem State.release_stopped (s : State) (d : Slot) : (s.release d).stopped = s.stopped := rfl
@[simp] theorem State.release_interval (s : State) (d : Slot) : (s.release d).interval = s.interval := rfl
@[simp] theorem State.release_res (s : State) (d : Slot) : (s.release d).res = s.res := rfl
@[simp] theorem State.release_resValid (s : State) (d : Slot) : (s.release d).resValid = s.resValid := rfl
@[simp] theorem State.release_lastStatus (s : State) (d : Slot) : (s.release d).lastStatus = s.lastStatus := rfl
@[simp] theorem State.release_adcCurCh (s : State) (d : Slot) : (s.release d).adcCurCh = s.adcCurCh := rfl
@[simp] theorem State.release_crcOk (s : State) (d : Slot) : (s.release d).crcOk = s.crcOk := rfl
@[simp] theorem State.release_skipCount (s : State) (d : Slot) : (s.release d).skipCount = s.skipCount := rfl
@[simp] theorem State.release_pwmErrcnt (s : State) (d : Slot) : (s.release d).pwmErrcnt = s.pwmErrcnt := rfl
@[simp] theorem State.release_adcChmask (s : State) (d : Slot) : (s.release d).adcChmask = s.adcChmask := rfl
@[simp] theorem State.release_pxaKinds (s : State) (d : Slot) : (s.release d).pxaKinds = s.pxaKinds := rfl
@[simp] theorem State.release_pollMaxAmb (s : State) (d : Slot) : (s.release d).pollMaxAmb = s.pollMaxAmb := rfl
@[simp] theorem State.release_pollMaxProx (s : State) (d : Slot) : (s.release d).pollMaxProx = s.pollMaxProx := rfl
@[simp] theorem State.release_pollGapMs (s : State) (d : Slot) : (s.release d).pollGapMs = s.pollGapMs := rfl
@[simp] theorem State.release_seq (s : State) (d : Slot) : (s.release d).seq = s.seq.set d { s.seq.get d with op := .idle } := rfl
@[simp] theorem State.release_trace (s : State) (d : Slot) : (s.release d).trace = s.trace := rfl
@[simp] theorem State.release_inputs (s : State) (d : Slot) : (s.release d).inputs = s.inputs := rfl
@[simp] theorem State.release_turn (s : State) (d : Slot) : (s.release d).turn = s.turn := rfl

/-! ### `clearException` -/

@[simp] theorem State.clearException_guard (s : State) (d : Slot) : (s.clearException d).guard = s.guard := rfl
@[simp] theorem State.clearException_timerEn (s : State) (d : Slot) : (s.clearException d).timerEn = s.timerEn := rfl
@[simp] theorem State.clearException_stopped (s : State) (d : Slot) : (s.clearException d).stopped = s.stopped := rfl
@[simp] theorem State.clearException_interval (s : State) (d : Slot) : (s.clearException d).interval = s.interval := rfl
@[simp] theorem State.clearException_res (s : State) (d : Slot) : (s.clearException d).res = s.res := rfl
@[simp] theorem State.clearException_resValid (s : State) (d : Slot) : (s.clearException d).resValid = s.resValid := rfl
@[simp] theorem State.clearException_lastStatus (s : State) (d : Slot) : (s.clearException d).lastStatus = s.lastStatus := rfl
@[simp] theorem State.clearException_adcCurCh (s : State) (d : Slot) : (s.clearException d).adcCurCh = s.adcCurCh := rfl
@[simp] theorem State.clearException_crcOk (s : State) (d : Slot) : (s.clearException d).crcOk = s.crcOk := rfl
@[simp] theorem State.clearException_skipCount (s : State) (d : Slot) : (s.clearException d).skipCount = s.skipCount := rfl
@[simp] theorem State.clearException_pwmErrcnt (s : State) (d : Slot) : (s.clearException d).pwmErrcnt = s.pwmErrcnt := rfl
@[simp] theorem State.clearException_adcChmask (s : State) (d : Slot) : (s.clearException d).adcChmask = s.adcChmask := rfl
@[simp] theorem State.clearException_pxaKinds (s : State) (d : Slot) : (s.clearException d).pxaKinds = s.pxaKinds := rfl
@[simp] theorem State.clearException_pollMaxAmb (s : State) (d : Slot) : (s.clearException d).pollMaxAmb = s.pollMaxAmb := rfl
@[simp] theorem State.clearException_pollMaxProx (s : State) (d : Slot) : (s.clearException d).pollMaxProx = s.pollMaxProx := rfl
@[simp] theorem State.clearException_pollGapMs (s : State) (d : Slot) : (s.clearException d).pollGapMs = s.pollGapMs := rfl
@[simp] theorem State.clearException_seq (s : State) (d : Slot) : (s.clearException d).seq = s.seq.set d { s.seq.get d with exc := .none } := rfl
@[simp] theorem State.clearException_trace (s : State) (d : Slot) : (s.clearException d).trace = s.trace := rfl
@[simp] theorem State.clearException_inputs (s : State) (d : Slot) : (s.clearException d).inputs = s.inputs := rfl
@[simp] theorem State.clearException_turn (s : State) (d : Slot) : (s.clearException d).turn = s.turn := rfl

/-! ### `setRes` -/

@[simp] theorem State.setRes_guard (s : State) (d : Sensor) (v : Word) (b : Bool) : (s.setRes d v b).guard = s.guard := rfl
@[simp] theorem State.setRes_timerEn (s : State) (d : Sensor) (v : Word) (b : Bool) : (s.setRes d v b).timerEn = s.timerEn := rfl
@[simp] theorem State.setRes_stopped (s : State) (d : Sensor) (v : Word) (b : Bool) : (s.setRes d v b).stopped = s.stopped := rfl
@[simp] theorem State.setRes_interval (s : State) (d : Sensor) (v : Word) (b : Bool) : (s.setRes d v b).interval = s.interval := rfl
@[simp] theorem State.setRes_res (s : State) (d : Sensor) (v : Word) (b : Bool) : (s.setRes d v b).res = s.res.set d v := rfl
@[simp] theorem State.setRes_resValid (s : State) (d : Sensor) (v : Word) (b : Bool) : (s.setRes d v b).resValid = s.resValid.set d b := rfl
@[simp] theorem State.setRes_lastStatus (s : State) (d : Sensor) (v : Word) (b : Bool) : (s.setRes d v b).lastStatus = s.lastStatus := rfl
@[simp] theorem State.setRes_adcCurCh (s : State) (d : Sensor) (v : Word) (b : Bool) : (s.setRes d v b).adcCurCh = s.adcCurCh := rfl
@[simp] theorem State.setRes_crcOk (s : State) (d : Sensor) (v : Word) (b : Bool) : (s.setRes d v b).crcOk = s.crcOk := rfl
@[simp] theorem State.setRes_skipCount (s : State) (d : Sensor) (v : Word) (b : Bool) : (s.setRes d v b).skipCount = s.skipCount := rfl
@[simp] theorem State.setRes_pwmErrcnt (s : State) (d : Sensor) (v : Word) (b : Bool) : (s.setRes d v b).pwmErrcnt = s.pwmErrcnt := rfl
@[simp] theorem State.setRes_adcChmask (s : State) (d : Sensor) (v : Word) (b : Bool) : (s.setRes d v b).adcChmask = s.adcChmask := rfl
@[simp] theorem State.setRes_pxaKinds (s : State) (d : Sensor) (v : Word) (b : Bool) : (s.setRes d v b).pxaKinds = s.pxaKinds := rfl
@[simp] theorem State.setRes_pollMaxAmb (s : State) (d : Sensor) (v : Word) (b : Bool) : (s.setRes d v b).pollMaxAmb = s.pollMaxAmb := rfl
@[simp] theorem State.setRes_pollMaxProx (s : State) (d : Sensor) (v : Word) (b : Bool) : (s.setRes d v b).pollMaxProx = s.pollMaxProx := rfl
@[simp] theorem State.setRes_pollGapMs (s : State) (d : Sensor) (v : Word) (b : Bool) : (s.setRes d v b).pollGapMs = s.pollGapMs := rfl
@[simp] theorem State.setRes_seq (s : State) (d : Sensor) (v : Word) (b : Bool) : (s.setRes d v b).seq = s.seq := rfl
@[simp] theorem State.setRes_trace (s : State) (d : Sensor) (v : Word) (b : Bool) : (s.setRes d v b).trace = s.trace := rfl
@[simp] theorem State.setRes_inputs (s : State) (d : Sensor) (v : Word) (b : Bool) : (s.setRes d v b).inputs = s.inputs := rfl
@[simp] theorem State.setRes_turn (s : State) (d : Sensor) (v : Word) (b : Bool) : (s.setRes d v b).turn = s.turn := rfl

/-! ### `emit` -/

@[simp] theorem State.emit_guard (s : State) (e : TraceEntry) : (s.emit e).guard = s.guard := rfl
@[simp] theorem State.emit_timerEn (s : State) (e : TraceEntry) : (s.emit e).timerEn = s.timerEn := rfl
@[simp] theorem State.emit_stopped (s : State) (e : TraceEntry) : (s.emit e).stopped = s.stopped := rfl
@[simp] theorem State.emit_interval (s : State) (e : TraceEntry) : (s.emit e).interval = s.interval := rfl
@[simp] theorem State.emit_res (s : State) (e : TraceEntry) : (s.emit e).res = s.res := rfl
@[simp] theorem State.emit_resValid (s : State) (e : TraceEntry) : (s.emit e).resValid = s.resValid := rfl
@[simp] theorem State.emit_lastStatus (s : State) (e : TraceEntry) : (s.emit e).lastStatus = s.lastStatus := rfl
@[simp] theorem State.emit_adcCurCh (s : State) (e : TraceEntry) : (s.emit e).adcCurCh = s.adcCurCh := rfl
@[simp] theorem State.emit_crcOk (s : State) (e : TraceEntry) : (s.emit e).crcOk = s.crcOk := rfl
@[simp] theorem State.emit_skipCount (s : State) (e : TraceEntry) : (s.emit e).skipCount = s.skipCount := rfl
@[simp] theorem State.emit_pwmErrcnt (s : State) (e : TraceEntry) : (s.emit e).pwmErrcnt = s.pwmErrcnt := rfl
@[simp] theorem State.emit_adcChmask (s : State) (e : TraceEntry) : (s.emit e).adcChmask = s.adcChmask := rfl
@[simp] theorem State.emit_pxaKinds (s : State) (e : TraceEntry) : (s.emit e).pxaKinds = s.pxaKinds := rfl
@[simp] theorem State.emit_pollMaxAmb (s : State) (e : TraceEntry) : (s.emit e).pollMaxAmb = s.pollMaxAmb := rfl
@[simp] theorem State.emit_pollMaxProx (s : State) (e : TraceEntry) : (s.emit e).pollMaxProx = s.pollMaxProx := rfl
@[simp] theorem State.emit_pollGapMs (s : State) (e : TraceEntry) : (s.emit e).pollGapMs = s.pollGapMs := rfl
@[simp] theorem State.emit_seq (s : State) (e : TraceEntry) : (s.emit e).seq = s.seq := rfl
@[simp] theorem State.emit_trace (s : State) (e : TraceEntry) : (s.emit e).trace = s.trace ++ [e] := rfl
@[simp] theorem State.emit_inputs (s : State) (e : TraceEntry) : (s.emit e).inputs = s.inputs := rfl
@[simp] theorem State.emit_turn (s : State) (e : TraceEntry) : (s.emit e).turn = s.turn := rfl

/-! ### `publish` -/

@[simp] theorem State.publish_guard (s : State) (e : Event) : (s.publish e).guard = s.guard := rfl
@[simp] theorem State.publish_timerEn (s : State) (e : Event) : (s.publish e).timerEn = s.timerEn := rfl
@[simp] theorem State.publish_stopped (s : State) (e : Event) : (s.publish e).stopped = s.stopped := rfl
@[simp] theorem State.publish_interval (s : State) (e : Event) : (s.publish e).interval = s.interval := rfl
@[simp] theorem State.publish_res (s : State) (e : Event) : (s.publish e).res = s.res := rfl
@[simp] theorem State.publish_resValid (s : State) (e : Event) : (s.publish e).resValid = s.resValid := rfl
@[simp] theorem State.publish_lastStatus (s : State) (e : Event) : (s.publish e).lastStatus = s.lastStatus := rfl
@[simp] theorem State.publish_adcCurCh (s : State) (e : Event) : (s.publish e).adcCurCh = s.adcCurCh := rfl
@[simp] theorem State.publish_crcOk (s : State) (e : Event) : (s.publish e).crcOk = s.crcOk := rfl
@[simp] theorem State.publish_skipCount (s : State) (e : Event) : (s.publish e).skipCount = s.skipCount := rfl
@[simp] theorem State.publish_pwmErrcnt (s : State) (e : Event) : (s.publish e).pwmErrcnt = s.pwmErrcnt := rfl
@[simp] theorem State.publish_adcChmask (s : State) (e : Event) : (s.publish e).adcChmask = s.adcChmask := rfl
@[simp] theorem State.publish_pxaKinds (s : State) (e : Event) : (s.publish e).pxaKinds = s.pxaKinds := rfl
@[simp] theorem State.publish_pollMaxAmb (s : State) (e : Event) : (s.publish e).pollMaxAmb = s.pollMaxAmb := rfl
@[simp] theorem State.publish_pollMaxProx (s : State) (e : Event) : (s.publish e).pollMaxProx = s.pollMaxProx := rfl
@[simp] theorem State.publish_pollGapMs (s : State) (e : Event) : (s.publish e).pollGapMs = s.pollGapMs := rfl
@[simp] theorem State.publish_seq (s : State) (e : Event) : (s.publish e).seq = s.seq := rfl
@[simp] theorem State.publish_trace (s : State) (e : Event) : (s.publish e).trace = s.trace ++ [.evt e] := rfl
@[simp] theorem State.publish_inputs (s : State) (e : Event) : (s.publish e).inputs = s.inputs := rfl
@[simp] theorem State.publish_turn (s : State) (e : Event) : (s.publish e).turn = s.turn := rfl

/-! ### `respond` -/

@[simp] theorem State.respond_guard (s : State) (o : Byte) (c : Status) (v : Word) : (s.respond o c v).guard = s.guard := rfl
@[simp] theorem State.respond_timerEn (s : State) (o : Byte) (c : Status) (v : Word) : (s.respond o c v).timerEn = s.timerEn := rfl
@[simp] theorem State.respond_stopped (s : State) (o : Byte) (c : Status) (v : Word) : (s.respond o c v).stopped = s.stopped := rfl
@[simp] theorem State.respond_interval (s : State) (o : Byte) (c : Status) (v : Word) : (s.respond o c v).interval = s.interval := rfl
@[simp] theorem State.respond_res (s : State) (o : Byte) (c : Status) (v : Word) : (s.respond o c v).res = s.res := rfl
@[simp] theorem State.respond_resValid (s : State) (o : Byte) (c : Status) (v : Word) : (s.respond o c v).resValid = s.resValid := rfl
@[simp] theorem State.respond_lastStatus (s : State) (o : Byte) (c : Status) (v : Word) : (s.respond o c v).lastStatus = s.lastStatus := rfl
@[simp] theorem State.respond_adcCurCh (s : State) (o : Byte) (c : Status) (v : Word) : (s.respond o c v).adcCurCh = s.adcCurCh := rfl
@[simp] theorem State.respond_crcOk (s : State) (o : Byte) (c : Status) (v : Word) : (s.respond o c v).crcOk = s.crcOk := rfl
@[simp] theorem State.respond_skipCount (s : State) (o : Byte) (c : Status) (v : Word) : (s.respond o c v).skipCount = s.skipCount := rfl
@[simp] theorem State.respond_pwmErrcnt (s : State) (o : Byte) (c : Status) (v : Word) : (s.respond o c v).pwmErrcnt = s.pwmErrcnt := rfl
@[simp] theorem State.respond_adcChmask (s : State) (o : Byte) (c : Status) (v : Word) : (s.respond o c v).adcChmask = s.adcChmask := rfl
@[simp] theorem State.respond_pxaKinds (s : State) (o : Byte) (c : Status) (v : Word) : (s.respond o c v).pxaKinds = s.pxaKinds := rfl
@[simp] theorem State.respond_pollMaxAmb (s : State) (o : Byte) (c : Status) (v : Word) : (s.respond o c v).pollMaxAmb = s.pollMaxAmb := rfl
@[simp] theorem State.respond_pollMaxProx (s : State) (o : Byte) (c : Status) (v : Word) : (s.respond o c v).pollMaxProx = s.pollMaxProx := rfl
@[simp] theorem State.respond_pollGapMs (s : State) (o : Byte) (c : Status) (v : Word) : (s.respond o c v).pollGapMs = s.pollGapMs := rfl
@[simp] theorem State.respond_seq (s : State) (o : Byte) (c : Status) (v : Word) : (s.respond o c v).seq = s.seq := rfl
@[simp] theorem State.respond_trace (s : State) (o : Byte) (c : Status) (v : Word) : (s.respond o c v).trace = s.trace ++ [.rsp ⟨o, c, v⟩] := rfl
@[simp] theorem State.respond_inputs (s : State) (o : Byte) (c : Status) (v : Word) : (s.respond o c v).inputs = s.inputs := rfl
@[simp] theorem State.respond_turn (s : State) (o : Byte) (c : Status) (v : Word) : (s.respond o c v).turn = s.turn := rfl

/-! ### `countPwmError` -/

@[simp] theorem State.countPwmError_guard (s : State) : (s.countPwmError).guard = s.guard := rfl
@[simp] theorem State.countPwmError_timerEn (s : State) : (s.countPwmError).timerEn = s.timerEn := rfl
@[simp] theorem State.countPwmError_stopped (s : State) : (s.countPwmError).stopped = s.stopped := rfl
@[simp] theorem State.countPwmError_interval (s : State) : (s.countPwmError).interval = s.interval := rfl
@[simp] theorem State.countPwmError_res (s : State) : (s.countPwmError).res = s.res := rfl
@[simp] theorem State.countPwmError_resValid (s : State) : (s.countPwmError).resValid = s.resValid := rfl
@[simp] theorem State.countPwmError_lastStatus (s : State) : (s.countPwmError).lastStatus = s.lastStatus := rfl
@[simp] theorem State.countPwmError_adcCurCh (s : State) : (s.countPwmError).adcCurCh = s.adcCurCh := rfl
@[simp] theorem State.countPwmError_crcOk (s : State) : (s.countPwmError).crcOk = s.crcOk := rfl
@[simp] theorem State.countPwmError_skipCount (s : State) : (s.countPwmError).skipCount = s.skipCount := rfl
@[simp] theorem State.countPwmError_pwmErrcnt (s : State) : (s.countPwmError).pwmErrcnt = saturatingSucc s.pwmErrcnt := rfl
@[simp] theorem State.countPwmError_adcChmask (s : State) : (s.countPwmError).adcChmask = s.adcChmask := rfl
@[simp] theorem State.countPwmError_pxaKinds (s : State) : (s.countPwmError).pxaKinds = s.pxaKinds := rfl
@[simp] theorem State.countPwmError_pollMaxAmb (s : State) : (s.countPwmError).pollMaxAmb = s.pollMaxAmb := rfl
@[simp] theorem State.countPwmError_pollMaxProx (s : State) : (s.countPwmError).pollMaxProx = s.pollMaxProx := rfl
@[simp] theorem State.countPwmError_pollGapMs (s : State) : (s.countPwmError).pollGapMs = s.pollGapMs := rfl
@[simp] theorem State.countPwmError_seq (s : State) : (s.countPwmError).seq = s.seq := rfl
@[simp] theorem State.countPwmError_trace (s : State) : (s.countPwmError).trace = s.trace := rfl
@[simp] theorem State.countPwmError_inputs (s : State) : (s.countPwmError).inputs = s.inputs := rfl
@[simp] theorem State.countPwmError_turn (s : State) : (s.countPwmError).turn = s.turn := rfl

/-! ### `countSkip` -/

@[simp] theorem State.countSkip_guard (s : State) (d : Sensor) : (s.countSkip d).guard = s.guard := rfl
@[simp] theorem State.countSkip_timerEn (s : State) (d : Sensor) : (s.countSkip d).timerEn = s.timerEn := rfl
@[simp] theorem State.countSkip_stopped (s : State) (d : Sensor) : (s.countSkip d).stopped = s.stopped := rfl
@[simp] theorem State.countSkip_interval (s : State) (d : Sensor) : (s.countSkip d).interval = s.interval := rfl
@[simp] theorem State.countSkip_res (s : State) (d : Sensor) : (s.countSkip d).res = s.res := rfl
@[simp] theorem State.countSkip_resValid (s : State) (d : Sensor) : (s.countSkip d).resValid = s.resValid := rfl
@[simp] theorem State.countSkip_lastStatus (s : State) (d : Sensor) : (s.countSkip d).lastStatus = s.lastStatus := rfl
@[simp] theorem State.countSkip_adcCurCh (s : State) (d : Sensor) : (s.countSkip d).adcCurCh = s.adcCurCh := rfl
@[simp] theorem State.countSkip_crcOk (s : State) (d : Sensor) : (s.countSkip d).crcOk = s.crcOk := rfl
@[simp] theorem State.countSkip_skipCount (s : State) (d : Sensor) : (s.countSkip d).skipCount = s.skipCount.set d (saturatingSucc (s.skipCount.get d)) := rfl
@[simp] theorem State.countSkip_pwmErrcnt (s : State) (d : Sensor) : (s.countSkip d).pwmErrcnt = s.pwmErrcnt := rfl
@[simp] theorem State.countSkip_adcChmask (s : State) (d : Sensor) : (s.countSkip d).adcChmask = s.adcChmask := rfl
@[simp] theorem State.countSkip_pxaKinds (s : State) (d : Sensor) : (s.countSkip d).pxaKinds = s.pxaKinds := rfl
@[simp] theorem State.countSkip_pollMaxAmb (s : State) (d : Sensor) : (s.countSkip d).pollMaxAmb = s.pollMaxAmb := rfl
@[simp] theorem State.countSkip_pollMaxProx (s : State) (d : Sensor) : (s.countSkip d).pollMaxProx = s.pollMaxProx := rfl
@[simp] theorem State.countSkip_pollGapMs (s : State) (d : Sensor) : (s.countSkip d).pollGapMs = s.pollGapMs := rfl
@[simp] theorem State.countSkip_seq (s : State) (d : Sensor) : (s.countSkip d).seq = s.seq := rfl
@[simp] theorem State.countSkip_trace (s : State) (d : Sensor) : (s.countSkip d).trace = s.trace := rfl
@[simp] theorem State.countSkip_inputs (s : State) (d : Sensor) : (s.countSkip d).inputs = s.inputs := rfl
@[simp] theorem State.countSkip_turn (s : State) (d : Sensor) : (s.countSkip d).turn = s.turn := rfl

/-! ### `setCrcOk` -/

@[simp] theorem State.setCrcOk_guard (s : State) (b : Bool) : (s.setCrcOk b).guard = s.guard := rfl
@[simp] theorem State.setCrcOk_timerEn (s : State) (b : Bool) : (s.setCrcOk b).timerEn = s.timerEn := rfl
@[simp] theorem State.setCrcOk_stopped (s : State) (b : Bool) : (s.setCrcOk b).stopped = s.stopped := rfl
@[simp] theorem State.setCrcOk_interval (s : State) (b : Bool) : (s.setCrcOk b).interval = s.interval := rfl
@[simp] theorem State.setCrcOk_res (s : State) (b : Bool) : (s.setCrcOk b).res = s.res := rfl
@[simp] theorem State.setCrcOk_resValid (s : State) (b : Bool) : (s.setCrcOk b).resValid = s.resValid := rfl
@[simp] theorem State.setCrcOk_lastStatus (s : State) (b : Bool) : (s.setCrcOk b).lastStatus = s.lastStatus := rfl
@[simp] theorem State.setCrcOk_adcCurCh (s : State) (b : Bool) : (s.setCrcOk b).adcCurCh = s.adcCurCh := rfl
@[simp] theorem State.setCrcOk_crcOk (s : State) (b : Bool) : (s.setCrcOk b).crcOk = b := rfl
@[simp] theorem State.setCrcOk_skipCount (s : State) (b : Bool) : (s.setCrcOk b).skipCount = s.skipCount := rfl
@[simp] theorem State.setCrcOk_pwmErrcnt (s : State) (b : Bool) : (s.setCrcOk b).pwmErrcnt = s.pwmErrcnt := rfl
@[simp] theorem State.setCrcOk_adcChmask (s : State) (b : Bool) : (s.setCrcOk b).adcChmask = s.adcChmask := rfl
@[simp] theorem State.setCrcOk_pxaKinds (s : State) (b : Bool) : (s.setCrcOk b).pxaKinds = s.pxaKinds := rfl
@[simp] theorem State.setCrcOk_pollMaxAmb (s : State) (b : Bool) : (s.setCrcOk b).pollMaxAmb = s.pollMaxAmb := rfl
@[simp] theorem State.setCrcOk_pollMaxProx (s : State) (b : Bool) : (s.setCrcOk b).pollMaxProx = s.pollMaxProx := rfl
@[simp] theorem State.setCrcOk_pollGapMs (s : State) (b : Bool) : (s.setCrcOk b).pollGapMs = s.pollGapMs := rfl
@[simp] theorem State.setCrcOk_seq (s : State) (b : Bool) : (s.setCrcOk b).seq = s.seq := rfl
@[simp] theorem State.setCrcOk_trace (s : State) (b : Bool) : (s.setCrcOk b).trace = s.trace := rfl
@[simp] theorem State.setCrcOk_inputs (s : State) (b : Bool) : (s.setCrcOk b).inputs = s.inputs := rfl
@[simp] theorem State.setCrcOk_turn (s : State) (b : Bool) : (s.setCrcOk b).turn = s.turn := rfl

/-! ### `startTimer` -/

@[simp] theorem State.startTimer_guard (s : State) (d : Sensor) (v : Half) : (s.startTimer d v).guard = s.guard := rfl
@[simp] theorem State.startTimer_timerEn (s : State) (d : Sensor) (v : Half) : (s.startTimer d v).timerEn = s.timerEn.set d true := rfl
@[simp] theorem State.startTimer_stopped (s : State) (d : Sensor) (v : Half) : (s.startTimer d v).stopped = s.stopped := rfl
@[simp] theorem State.startTimer_interval (s : State) (d : Sensor) (v : Half) : (s.startTimer d v).interval = s.interval.set d v := rfl
@[simp] theorem State.startTimer_res (s : State) (d : Sensor) (v : Half) : (s.startTimer d v).res = s.res := rfl
@[simp] theorem State.startTimer_resValid (s : State) (d : Sensor) (v : Half) : (s.startTimer d v).resValid = s.resValid := rfl
@[simp] theorem State.startTimer_lastStatus (s : State) (d : Sensor) (v : Half) : (s.startTimer d v).lastStatus = s.lastStatus := rfl
@[simp] theorem State.startTimer_adcCurCh (s : State) (d : Sensor) (v : Half) : (s.startTimer d v).adcCurCh = s.adcCurCh := rfl
@[simp] theorem State.startTimer_crcOk (s : State) (d : Sensor) (v : Half) : (s.startTimer d v).crcOk = s.crcOk := rfl
@[simp] theorem State.startTimer_skipCount (s : State) (d : Sensor) (v : Half) : (s.startTimer d v).skipCount = s.skipCount := rfl
@[simp] theorem State.startTimer_pwmErrcnt (s : State) (d : Sensor) (v : Half) : (s.startTimer d v).pwmErrcnt = s.pwmErrcnt := rfl
@[simp] theorem State.startTimer_adcChmask (s : State) (d : Sensor) (v : Half) : (s.startTimer d v).adcChmask = s.adcChmask := rfl
@[simp] theorem State.startTimer_pxaKinds (s : State) (d : Sensor) (v : Half) : (s.startTimer d v).pxaKinds = s.pxaKinds := rfl
@[simp] theorem State.startTimer_pollMaxAmb (s : State) (d : Sensor) (v : Half) : (s.startTimer d v).pollMaxAmb = s.pollMaxAmb := rfl
@[simp] theorem State.startTimer_pollMaxProx (s : State) (d : Sensor) (v : Half) : (s.startTimer d v).pollMaxProx = s.pollMaxProx := rfl
@[simp] theorem State.startTimer_pollGapMs (s : State) (d : Sensor) (v : Half) : (s.startTimer d v).pollGapMs = s.pollGapMs := rfl
@[simp] theorem State.startTimer_seq (s : State) (d : Sensor) (v : Half) : (s.startTimer d v).seq = s.seq := rfl
@[simp] theorem State.startTimer_trace (s : State) (d : Sensor) (v : Half) : (s.startTimer d v).trace = s.trace := rfl
@[simp] theorem State.startTimer_inputs (s : State) (d : Sensor) (v : Half) : (s.startTimer d v).inputs = s.inputs := rfl
@[simp] theorem State.startTimer_turn (s : State) (d : Sensor) (v : Half) : (s.startTimer d v).turn = s.turn := rfl

/-! ### `logged` -/

@[simp] theorem State.logged_guard (s : State) (es : List TraceEntry) : (s.logged es).guard = s.guard := rfl
@[simp] theorem State.logged_timerEn (s : State) (es : List TraceEntry) : (s.logged es).timerEn = s.timerEn := rfl
@[simp] theorem State.logged_stopped (s : State) (es : List TraceEntry) : (s.logged es).stopped = s.stopped := rfl
@[simp] theorem State.logged_interval (s : State) (es : List TraceEntry) : (s.logged es).interval = s.interval := rfl
@[simp] theorem State.logged_res (s : State) (es : List TraceEntry) : (s.logged es).res = s.res := rfl
@[simp] theorem State.logged_resValid (s : State) (es : List TraceEntry) : (s.logged es).resValid = s.resValid := rfl
@[simp] theorem State.logged_lastStatus (s : State) (es : List TraceEntry) : (s.logged es).lastStatus = s.lastStatus := rfl
@[simp] theorem State.logged_adcCurCh (s : State) (es : List TraceEntry) : (s.logged es).adcCurCh = s.adcCurCh := rfl
@[simp] theorem State.logged_crcOk (s : State) (es : List TraceEntry) : (s.logged es).crcOk = s.crcOk := rfl
@[simp] theorem State.logged_skipCount (s : State) (es : List TraceEntry) : (s.logged es).skipCount = s.skipCount := rfl
@[simp] theorem State.logged_pwmErrcnt (s : State) (es : List TraceEntry) : (s.logged es).pwmErrcnt = s.pwmErrcnt := rfl
@[simp] theorem State.logged_adcChmask (s : State) (es : List TraceEntry) : (s.logged es).adcChmask = s.adcChmask := rfl
@[simp] theorem State.logged_pxaKinds (s : State) (es : List TraceEntry) : (s.logged es).pxaKinds = s.pxaKinds := rfl
@[simp] theorem State.logged_pollMaxAmb (s : State) (es : List TraceEntry) : (s.logged es).pollMaxAmb = s.pollMaxAmb := rfl
@[simp] theorem State.logged_pollMaxProx (s : State) (es : List TraceEntry) : (s.logged es).pollMaxProx = s.pollMaxProx := rfl
@[simp] theorem State.logged_pollGapMs (s : State) (es : List TraceEntry) : (s.logged es).pollGapMs = s.pollGapMs := rfl
@[simp] theorem State.logged_seq (s : State) (es : List TraceEntry) : (s.logged es).seq = s.seq := rfl
@[simp] theorem State.logged_trace (s : State) (es : List TraceEntry) : (s.logged es).trace = s.trace ++ es := rfl
@[simp] theorem State.logged_inputs (s : State) (es : List TraceEntry) : (s.logged es).inputs = s.inputs := rfl
@[simp] theorem State.logged_turn (s : State) (es : List TraceEntry) : (s.logged es).turn = s.turn := rfl

end Sys2Proof.Machine
end

