-- ==== Sys2Proof/Laws/Ops.lean ====
section
/-!
SUPPORT. What each shared operation can do, said once: acceptance, one micro-step, the exception entry, ticks, the delivery of
inputs. Later proofs cite these and do not unfold the operations.
-/

namespace Sys2Proof.Machine

/-! ### Equality of states -/

/-- A state is its fields. -/
theorem State.eq_of_fields {s t : State} (guard : s.guard = t.guard) (timerEn : s.timerEn = t.timerEn)
    (stopped : s.stopped = t.stopped) (interval : s.interval = t.interval) (res : s.res = t.res)
    (resValid : s.resValid = t.resValid) (lastStatus : s.lastStatus = t.lastStatus) (adcCurCh : s.adcCurCh = t.adcCurCh)
    (crcOk : s.crcOk = t.crcOk) (skipCount : s.skipCount = t.skipCount) (pwmErrcnt : s.pwmErrcnt = t.pwmErrcnt)
    (adcChmask : s.adcChmask = t.adcChmask) (pxaKinds : s.pxaKinds = t.pxaKinds) (pollMaxAmb : s.pollMaxAmb = t.pollMaxAmb)
    (pollMaxProx : s.pollMaxProx = t.pollMaxProx) (pollGapMs : s.pollGapMs = t.pollGapMs) (seq : s.seq = t.seq)
    (trace : s.trace = t.trace) (inputs : s.inputs = t.inputs) (turn : s.turn = t.turn) : s = t := by
  cases s
  cases t
  simp_all

/-- Answering a command is one entry of the trace. -/
theorem State.respond_eq_logged (s : State) (opcode : Byte) (status : Status) (value : Word) :
    s.respond opcode status value = s.logged [answered opcode status value] := rfl

theorem State.publish_eq_logged (s : State) (e : Event) : s.publish e = s.logged [.evt e] := rfl

theorem State.emit_eq_logged (s : State) (e : TraceEntry) : s.emit e = s.logged [e] := rfl

@[simp] theorem State.logged_nil (s : State) : s.logged [] = s := by
  cases s
  simp [State.logged]

@[simp] theorem State.logged_logged (s : State) (es fs : List TraceEntry) :
    (s.logged es).logged fs = s.logged (es ++ fs) := by simp [State.logged]

/-! ### Lists of answers and of entries -/

/-- Appending entries one at a time appends them all. -/
theorem foldl_append_one {α : Type} (es tr : List α) : es.foldl (fun t e => t ++ [e]) tr = tr ++ es := by
  induction es generalizing tr with
  | nil => simp
  | cons e es ih => simp [ih]

/-- A wait reads and delays in turn, and ends with a read (42_codec_pxa.md rule R171). -/
theorem intersperse_map_concat {α β : Type} (f : α → β) (a : β) (waiting : List α) (last : α) :
    ((waiting ++ [last]).map f).intersperse a = waiting.flatMap (fun b => [f b, a]) ++ [f last] := by
  induction waiting with
  | nil => rfl
  | cons b rest ih =>
    cases rest with
    | nil => rfl
    | cons c rest => simpa [List.intersperse] using ih

/-! ### Acceptance (47_poll.md rule R314) -/

theorem State.startCommand_stopped {s : State} {d : Slot} (opcode : Byte) (latch : Seq → Seq)
    (h : s.stopped.get d = true) : s.startCommand d opcode latch = s.respond opcode .stopped 0#32 := if_pos h

theorem State.startCommand_busy {s : State} {d : Slot} (opcode : Byte) (latch : Seq → Seq)
    (hs : s.stopped.get d = false) (hg : s.guard.get d = true) :
    s.startCommand d opcode latch = s.respond opcode .busy 0#32 := by simp [State.startCommand, hs, hg]

theorem State.startCommand_free {s : State} {d : Slot} (opcode : Byte) (latch : Seq → Seq) (h : Free d s) :
    s.startCommand d opcode latch = s.beginCommand d opcode latch := by simp [State.startCommand, h.1, h.2]

/-- Everything an acceptance can do: refuse as stopped, refuse as busy, or start. -/
theorem State.startCommand_cases (s : State) (d : Slot) (opcode : Byte) (latch : Seq → Seq) :
    (s.stopped.get d = true ∧ s.startCommand d opcode latch = s.respond opcode .stopped 0#32) ∨
    (s.stopped.get d = false ∧ s.guard.get d = true ∧
      s.startCommand d opcode latch = s.respond opcode .busy 0#32) ∨
    (Free d s ∧ s.startCommand d opcode latch = s.beginCommand d opcode latch) := by
  by_cases hs : s.stopped.get d = true
  · exact .inl ⟨hs, State.startCommand_stopped opcode latch hs⟩
  · have hs : s.stopped.get d = false := by simpa using hs
    by_cases hg : s.guard.get d = true
    · exact .inr (.inl ⟨hs, hg, State.startCommand_busy opcode latch hs hg⟩)
    · have hf : Free d s := ⟨hs, by simpa using hg⟩
      exact .inr (.inr ⟨hf, State.startCommand_free opcode latch hf⟩)

/-! ### Ticks (rules R320, R321) -/

/-- Everything a tick can do: nothing, a counted skip, or the start of the slot's cycle. -/
theorem tickStep_cases (p : Params) (d : Sensor) (s : State) :
    (s.timerEn.get d = false ∧ tickStep p d s = s) ∨
    (s.timerEn.get d = true ∧ s.guard.get d.slot = true ∧ tickStep p d s = s.countSkip d) ∨
    (s.timerEn.get d = true ∧ s.guard.get d.slot = false ∧ tickStep p d s = s.beginCycle d.slot (cycleOp p d s)) := by
  unfold tickStep
  by_cases ht : s.timerEn.get d = false
  · exact .inl ⟨ht, if_pos ht⟩
  · rw [if_neg ht]
    have ht : s.timerEn.get d = true := by simpa using ht
    by_cases hg : s.guard.get d.slot = true
    · exact .inr (.inl ⟨ht, hg, if_pos hg⟩)
    · exact .inr (.inr ⟨ht, by simpa using hg, if_neg hg⟩)

/-! ### One action (10_state.md rule R34) -/

theorem State.perform_bus_ok {s : State} {d : Slot} {k : Nat} {ans : BusAnswer} {op : BusOp} {rd : List Byte}
    (after : List Byte → State → State) (h : answerBytes op.asked ans = some rd) :
    s.perform d k ans (.bus op after) = after rd (((s.emit (.bus d op (some rd))).latchRead d op rd).goto d (k + 1)) := by
  simp only [State.perform, h]

theorem State.perform_bus_fail {s : State} {d : Slot} {k : Nat} {ans : BusAnswer} {op : BusOp}
    (after : List Byte → State → State) (h : answerBytes op.asked ans = none) :
    s.perform d k ans (.bus op after) = (s.emit (.bus d op none)).raise d .busError := by
  simp only [State.perform, h]

theorem State.perform_delay (s : State) (d : Slot) (k : Nat) (ans : BusAnswer) (ms : Half) (next : Nat) :
    s.perform d k ans (.delay ms next) = (s.emit (.delay d ms)).goto d next := rfl

theorem State.perform_internal (s : State) (d : Slot) (k : Nat) (ans : BusAnswer) (act : State → State) :
    s.perform d k ans (.internal act) = act (s.goto d (k + 1)) := rfl

theorem State.perform_retire (s : State) (d : Slot) (k : Nat) (ans : BusAnswer) (final : State → State)
    (value : State → Word) : s.perform d k ans (.retire final value) = s.retire d final value := rfl

/-- An answer is `Ok` with exactly the bytes asked for, or a failure (20_memory.md rule R62). -/
theorem answerBytes_eq_some {n : Nat} {ans : BusAnswer} {rd : List Byte} :
    answerBytes n ans = some rd ↔ ans = .ok rd ∧ rd.length = n := by
  cases ans with
  | ok bytes =>
    simp only [answerBytes]
    split
    · next h => constructor <;> rintro h' <;> simp_all
    · next h =>
      constructor
      · intro h'; cases h'
      · rintro ⟨h', hl⟩; cases h'; exact absurd hl h
  | fail => simp [answerBytes]

theorem answerBytes_eq_none {n : Nat} {ans : BusAnswer} :
    answerBytes n ans = none ↔ ∀ bytes, ans = .ok bytes → bytes.length ≠ n := by
  cases ans with
  | ok bytes => simp [answerBytes]
  | fail => simp [answerBytes]

/-! ### One micro-step (rules R34, R35) -/

theorem microStep_idle {p : Params} {d : Slot} {s : State} (ans : BusAnswer) (h : s.guard.get d = false) :
    microStep p d ans s = .next s := by simp [microStep, h]

theorem microStep_at {p : Params} {d : Slot} {s : State} {k : Nat} {act : Action} (ans : BusAnswer)
    (hg : s.guard.get d = true) (ho : (s.seq.get d).op.slot = some d) (hk : (s.seq.get d).step = .at k)
    (ha : programOf p (s.seq.get d) k = some act) : microStep p d ans s = .next (s.perform d k ans act) := by
  simp [microStep, hg, ho, hk, ha]

theorem microStep_failExit_busError {p : Params} {d : Slot} {s : State} (ans : BusAnswer)
    (hg : s.guard.get d = true) (ho : (s.seq.get d).op.slot = some d) (hk : (s.seq.get d).step = .failExit)
    (he : (s.seq.get d).exc = .busError) : microStep p d ans s = .next (s.failExit d .busError .busError 0#32) := by
  simp [microStep, hg, ho, hk, he]

theorem microStep_failExit_timeout {p : Params} {d : Slot} {s : State} (ans : BusAnswer)
    (hg : s.guard.get d = true) (ho : (s.seq.get d).op.slot = some d) (hk : (s.seq.get d).step = .failExit)
    (he : (s.seq.get d).exc = .timeout) :
    microStep p d ans s = .next (s.failExit d .timeout .timeout absentReading) := by
  simp [microStep, hg, ho, hk, he]

/-- Everything a micro-step that answers a next state can do: nothing on an idle slot, one action of the running program, or the
fail-exit of the pending exception. -/
theorem microStep_cases {p : Params} {d : Slot} {s t : State} {ans : BusAnswer} (h : microStep p d ans s = .next t) :
    (s.guard.get d = false ∧ t = s) ∨
    (s.guard.get d = true ∧ (s.seq.get d).op.slot = some d ∧
      ((∃ k act, (s.seq.get d).step = .at k ∧ programOf p (s.seq.get d) k = some act ∧ t = s.perform d k ans act) ∨
        ((s.seq.get d).step = .failExit ∧ (s.seq.get d).exc = .busError ∧ t = s.failExit d .busError .busError 0#32) ∨
        ((s.seq.get d).step = .failExit ∧ (s.seq.get d).exc = .timeout ∧
          t = s.failExit d .timeout .timeout absentReading))) := by
  by_cases hg : s.guard.get d = false
  · rw [microStep_idle ans hg] at h
    exact .inl ⟨hg, (Host.Outcome.next.inj h).symm⟩
  · have hg : s.guard.get d = true := by simpa using hg
    by_cases ho : (s.seq.get d).op.slot = some d
    · refine .inr ⟨hg, ho, ?_⟩
      rcases hk : (s.seq.get d).step with k | _
      · cases ha : programOf p (s.seq.get d) k with
        | none => simp [microStep, hg, ho, hk, ha] at h
        | some act =>
          rw [microStep_at ans hg ho hk ha] at h
          exact .inl ⟨k, act, rfl, ha, (Host.Outcome.next.inj h).symm⟩
      · cases he : (s.seq.get d).exc with
        | none => simp [microStep, hg, ho, hk, he] at h
        | busError =>
          rw [microStep_failExit_busError ans hg ho hk he] at h
          exact .inr (.inl ⟨rfl, rfl, (Host.Outcome.next.inj h).symm⟩)
        | timeout =>
          rw [microStep_failExit_timeout ans hg ho hk he] at h
          exact .inr (.inr ⟨rfl, rfl, (Host.Outcome.next.inj h).symm⟩)
    · simp [microStep, hg, ho] at h

/-! ### Delivery of inputs -/

theorem deliverAll_nil (s : State) : deliverAll [] s = .next s := rfl

theorem deliverAll_cons {i : Input} {s t : State} (rest : List Input) (h : deliver i s = .next t) :
    deliverAll (i :: rest) s = deliverAll rest t := by simp [deliverAll, h]

/-- A list of inputs that ends in a next state goes through the end of each of its prefixes. -/
theorem deliverAll_append {is : List Input} {s t : State} (js : List Input) (h : deliverAll is s = .next t) :
    deliverAll (is ++ js) s = deliverAll js t := by
  induction is generalizing s with
  | nil => simp only [deliverAll] at h; simp [Host.Outcome.next.inj h]
  | cons i is ih =>
    cases hd : deliver i s with
    | next s' =>
      rw [deliverAll_cons is hd] at h
      rw [List.cons_append, deliverAll_cons (is ++ js) hd]
      exact ih h
    | fault r => simp [deliverAll, hd] at h
    | refused r => simp [deliverAll, hd] at h

theorem microSteps_append (d : Slot) (as bs : List BusAnswer) :
    microSteps d (as ++ bs) = microSteps d as ++ microSteps d bs := by simp [microSteps]

/-- An operation that runs to a state whose sequencer is idle and whose other parts are those of `final`. -/
theorem runsTo_of {d : Slot} {as : List BusAnswer} {t u final : State} (h : deliverAll (microSteps d as) t = .next u)
    (hi : (u.seq.get d).op = .idle) (he : u = final.setSeq d (u.seq.get d)) : RunsTo d as t final :=
  ⟨u, h, _, hi, he⟩

end Sys2Proof.Machine
end

