-- ==== Sys2Proof/Laws/PerInstr.lean ====
section
/-!
SUPPORT. The round trip of each command: a frame written from the encoding decodes to the command it encodes
(30_encoding.md rules R101, R102, R110), one lemma per constructor of `Instr`.
-/

namespace Sys2Proof

/-- A command decodes from its frame once its frame matches its row of the table and the row reads its operands back. -/
theorem decode_encode_of_row (n : Nat) (hn : n < opcodeTable.length) {i : Instr}
    (hm : encode i &&& opcodeTable[n].mask = opcodeTable[n].pat) (hr : opcodeTable[n].read (encode i) = i) :
    decode (encode i) = .ok i := by
  rw [decode_of_row n hn (by simp [OpcodeRow.matches, hm]), hr]

namespace Laws.RoundTrip

/-- Decoding the frame of a well-formed command gives the command back. -/
def Statement (i : Instr) : Prop := i.WellFormed = true → decode (encode i) = .ok i

theorem cfgw (reg : Byte) (val : Half) : Statement (.cfgw reg val) := by
  intro h
  have f0 : (encode (.cfgw reg val)).extractLsb' 16 8 = reg := by
    apply BitVec.eq_of_getLsbD_eq
    intro i hi
    simp only [encode, Instr.opcode, Instr.operandWord, BitVec.getLsbD_extractLsb', BitVec.getLsbD_append]
    interval_cases i <;> simp
  have f1 : (encode (.cfgw reg val)).extractLsb' 0 16 = val := by
    apply BitVec.eq_of_getLsbD_eq
    intro i hi
    simp only [encode, Instr.opcode, Instr.operandWord, BitVec.getLsbD_extractLsb', BitVec.getLsbD_append]
    interval_cases i <;> simp
  refine decode_encode_of_row 0 (by decide) ?_ ?_
  · apply BitVec.eq_of_getLsbD_eq
    intro i hi
    simp only [opcodeTable, pollRows, adcRows, pxaRows, usrRows, crcRows, pwmRows, List.cons_append, List.nil_append,
      List.getElem_cons_zero, encode, Instr.opcode, Instr.operandWord, BitVec.getLsbD_and,
      BitVec.getLsbD_append]
    interval_cases i <;> simp
  · change Instr.cfgw (regOf (encode (.cfgw reg val))) (lowHalfOf (encode (.cfgw reg val))) = Instr.cfgw reg val
    simp only [regOf, lowHalfOf, f0, f1]

theorem cfgr (reg : Byte) : Statement (.cfgr reg) := by
  intro h
  have f0 : (encode (.cfgr reg)).extractLsb' 16 8 = reg := by
    apply BitVec.eq_of_getLsbD_eq
    intro i hi
    simp only [encode, Instr.opcode, Instr.operandWord, BitVec.getLsbD_extractLsb', BitVec.getLsbD_append]
    interval_cases i <;> simp
  refine decode_encode_of_row 1 (by decide) ?_ ?_
  · apply BitVec.eq_of_getLsbD_eq
    intro i hi
    simp only [opcodeTable, pollRows, adcRows, pxaRows, usrRows, crcRows, pwmRows, List.cons_append, List.nil_append,
      List.getElem_cons_succ, List.getElem_cons_zero, encode, Instr.opcode, Instr.operandWord, BitVec.getLsbD_and,
      BitVec.getLsbD_append]
    interval_cases i <;> simp
  · change Instr.cfgr (regOf (encode (.cfgr reg))) = Instr.cfgr reg
    simp only [regOf, f0]

theorem start (slot : Slot) (interval : Nat) : Statement (.start slot interval) := by
  intro h
  simp only [Instr.WellFormed, fitsUnsigned, decide_eq_true_eq] at h
  have f0 : (encode (.start slot interval)).extractLsb' 16 2 = slot.bits := by
    apply BitVec.eq_of_getLsbD_eq
    intro i hi
    simp only [encode, Instr.opcode, Instr.operandWord, BitVec.getLsbD_extractLsb', BitVec.getLsbD_append]
    interval_cases i <;> simp
  have f1 : (encode (.start slot interval)).extractLsb' 0 16 = BitVec.ofNat 16 interval := by
    apply BitVec.eq_of_getLsbD_eq
    intro i hi
    simp only [encode, Instr.opcode, Instr.operandWord, BitVec.getLsbD_extractLsb', BitVec.getLsbD_append]
    interval_cases i <;> simp
  refine decode_encode_of_row 2 (by decide) ?_ ?_
  · apply BitVec.eq_of_getLsbD_eq
    intro i hi
    simp only [opcodeTable, pollRows, adcRows, pxaRows, usrRows, crcRows, pwmRows, List.cons_append, List.nil_append,
      List.getElem_cons_succ, List.getElem_cons_zero, encode, Instr.opcode, Instr.operandWord, BitVec.getLsbD_and,
      BitVec.getLsbD_append]
    interval_cases i <;> simp
  · change Instr.start (slotOf (encode (.start slot interval))) (lowHalfOf (encode (.start slot interval))).toNat =
      Instr.start slot interval
    simp [slotOf, lowHalfOf, f0, f1]
    omega

theorem stop (slot : Slot) : Statement (.stop slot) := fun _ => by cases slot <;> rfl

theorem adtrig (b : Nat) : Statement (.adtrig b) := by
  intro h
  simp only [Instr.WellFormed, fitsUnsigned, decide_eq_true_eq] at h
  have f0 : (encode (.adtrig b)).extractLsb' 0 8 = BitVec.ofNat 8 b := by
    apply BitVec.eq_of_getLsbD_eq
    intro i hi
    simp only [encode, Instr.opcode, Instr.operandWord, BitVec.getLsbD_extractLsb', BitVec.getLsbD_append]
    interval_cases i <;> simp
  refine decode_encode_of_row 4 (by decide) ?_ ?_
  · apply BitVec.eq_of_getLsbD_eq
    intro i hi
    simp only [opcodeTable, pollRows, adcRows, pxaRows, usrRows, crcRows, pwmRows, List.cons_append, List.nil_append,
      List.getElem_cons_succ, List.getElem_cons_zero, encode, Instr.opcode, Instr.operandWord, BitVec.getLsbD_and,
      BitVec.getLsbD_append]
    interval_cases i <;> simp
  · change Instr.adtrig (lowByteOf (encode (.adtrig b))).toNat = Instr.adtrig b
    simp [lowByteOf, f0]
    omega

theorem adread : Statement .adread := fun _ => rfl

theorem admeas (b : Nat) : Statement (.admeas b) := by
  intro h
  simp only [Instr.WellFormed, fitsUnsigned, decide_eq_true_eq] at h
  have f0 : (encode (.admeas b)).extractLsb' 0 8 = BitVec.ofNat 8 b := by
    apply BitVec.eq_of_getLsbD_eq
    intro i hi
    simp only [encode, Instr.opcode, Instr.operandWord, BitVec.getLsbD_extractLsb', BitVec.getLsbD_append]
    interval_cases i <;> simp
  refine decode_encode_of_row 6 (by decide) ?_ ?_
  · apply BitVec.eq_of_getLsbD_eq
    intro i hi
    simp only [opcodeTable, pollRows, adcRows, pxaRows, usrRows, crcRows, pwmRows, List.cons_append, List.nil_append,
      List.getElem_cons_succ, List.getElem_cons_zero, encode, Instr.opcode, Instr.operandWord, BitVec.getLsbD_and,
      BitVec.getLsbD_append]
    interval_cases i <;> simp
  · change Instr.admeas (lowByteOf (encode (.admeas b))).toNat = Instr.admeas b
    simp [lowByteOf, f0]
    omega

theorem pxtrig (k : Kind) : Statement (.pxtrig k) := fun _ => by cases k <;> rfl

theorem pxrdy (k : Kind) : Statement (.pxrdy k) := fun _ => by cases k <;> rfl

theorem pxread (k : Kind) : Statement (.pxread k) := fun _ => by cases k <;> rfl

theorem pxmeas (k : Kind) : Statement (.pxmeas k) := fun _ => by cases k <;> rfl

theorem pxled (units : Nat) : Statement (.pxled units) := by
  intro h
  simp only [Instr.WellFormed, fitsUnsigned, decide_eq_true_eq] at h
  have f0 : (encode (.pxled units)).extractLsb' 0 16 = BitVec.ofNat 16 units := by
    apply BitVec.eq_of_getLsbD_eq
    intro i hi
    simp only [encode, Instr.opcode, Instr.operandWord, BitVec.getLsbD_extractLsb', BitVec.getLsbD_append]
    interval_cases i <;> simp
  refine decode_encode_of_row 11 (by decide) ?_ ?_
  · apply BitVec.eq_of_getLsbD_eq
    intro i hi
    simp only [opcodeTable, pollRows, adcRows, pxaRows, usrRows, crcRows, pwmRows, List.cons_append, List.nil_append,
      List.getElem_cons_succ, List.getElem_cons_zero, encode, Instr.opcode, Instr.operandWord, BitVec.getLsbD_and,
      BitVec.getLsbD_append]
    interval_cases i <;> simp
  · change Instr.pxled (lowHalfOf (encode (.pxled units))).toNat = Instr.pxled units
    simp [lowHalfOf, f0]
    omega

theorem ustrig : Statement .ustrig := fun _ => rfl

theorem usread : Statement .usread := fun _ => rfl

theorem usmeas : Statement .usmeas := fun _ => rfl

theorem crcv (data : Half) (crc : Byte) (quirk strict : Bool) : Statement (.crcv data crc quirk strict) := by
  intro h
  have f0 : (encode (.crcv data crc quirk strict)).extractLsb' 8 16 = data := by
    apply BitVec.eq_of_getLsbD_eq
    intro i hi
    simp only [encode, Instr.opcode, Instr.operandWord, BitVec.getLsbD_extractLsb', BitVec.getLsbD_append]
    interval_cases i <;> simp
  have f1 : (encode (.crcv data crc quirk strict)).extractLsb' 0 8 = crc := by
    apply BitVec.eq_of_getLsbD_eq
    intro i hi
    simp only [encode, Instr.opcode, Instr.operandWord, BitVec.getLsbD_extractLsb', BitVec.getLsbD_append]
    interval_cases i <;> simp
  have g24 : (encode (.crcv data crc quirk strict)).getLsbD 24 = quirk := by
    simp only [encode, Instr.opcode, Instr.operandWord, BitVec.getLsbD_append]
    simp
  have g25 : (encode (.crcv data crc quirk strict)).getLsbD 25 = strict := by
    simp only [encode, Instr.opcode, Instr.operandWord, BitVec.getLsbD_append]
    simp
  refine decode_encode_of_row 15 (by decide) ?_ ?_
  · apply BitVec.eq_of_getLsbD_eq
    intro i hi
    simp only [opcodeTable, pollRows, adcRows, pxaRows, usrRows, crcRows, pwmRows, List.cons_append, List.nil_append,
      List.getElem_cons_succ, List.getElem_cons_zero, encode, Instr.opcode, Instr.operandWord, BitVec.getLsbD_and,
      BitVec.getLsbD_append]
    interval_cases i <;> simp
  · change Instr.crcv (dataOf (encode (.crcv data crc quirk strict))) (lowByteOf (encode (.crcv data crc quirk strict))) ((encode (.crcv data crc quirk strict)).getLsbD 24) ((encode (.crcv data crc quirk strict)).getLsbD 25) =
      Instr.crcv data crc quirk strict
    simp only [dataOf, lowByteOf, f0, f1, g24, g25]

theorem setfreq (hz : Nat) : Statement (.setfreq hz) := by
  intro h
  simp only [Instr.WellFormed, fitsUnsigned, decide_eq_true_eq] at h
  have f0 : (encode (.setfreq hz)).extractLsb' 0 16 = BitVec.ofNat 16 hz := by
    apply BitVec.eq_of_getLsbD_eq
    intro i hi
    simp only [encode, Instr.opcode, Instr.operandWord, BitVec.getLsbD_extractLsb', BitVec.getLsbD_append]
    interval_cases i <;> simp
  refine decode_encode_of_row 16 (by decide) ?_ ?_
  · apply BitVec.eq_of_getLsbD_eq
    intro i hi
    simp only [opcodeTable, pollRows, adcRows, pxaRows, usrRows, crcRows, pwmRows, List.cons_append, List.nil_append,
      List.getElem_cons_succ, List.getElem_cons_zero, encode, Instr.opcode, Instr.operandWord, BitVec.getLsbD_and,
      BitVec.getLsbD_append]
    interval_cases i <;> simp
  · change Instr.setfreq (lowHalfOf (encode (.setfreq hz))).toNat = Instr.setfreq hz
    simp [lowHalfOf, f0]
    omega

theorem setpwm (ch on off : Nat) : Statement (.setpwm ch on off) := by
  intro h
  simp only [Instr.WellFormed, fitsUnsigned, Bool.and_eq_true, decide_eq_true_eq] at h
  have f0 : (encode (.setpwm ch on off)).extractLsb' 28 4 = BitVec.ofNat 4 ch := by
    apply BitVec.eq_of_getLsbD_eq
    intro i hi
    simp only [encode, Instr.opcode, Instr.operandWord, BitVec.getLsbD_extractLsb', BitVec.getLsbD_append]
    interval_cases i <;> simp
  have f1 : (encode (.setpwm ch on off)).extractLsb' 13 13 = BitVec.ofNat 13 on := by
    apply BitVec.eq_of_getLsbD_eq
    intro i hi
    simp only [encode, Instr.opcode, Instr.operandWord, BitVec.getLsbD_extractLsb', BitVec.getLsbD_append]
    interval_cases i <;> simp
  have f2 : (encode (.setpwm ch on off)).extractLsb' 0 13 = BitVec.ofNat 13 off := by
    apply BitVec.eq_of_getLsbD_eq
    intro i hi
    simp only [encode, Instr.opcode, Instr.operandWord, BitVec.getLsbD_extractLsb', BitVec.getLsbD_append]
    interval_cases i <;> simp
  refine decode_encode_of_row 17 (by decide) ?_ ?_
  · apply BitVec.eq_of_getLsbD_eq
    intro i hi
    simp only [opcodeTable, pollRows, adcRows, pxaRows, usrRows, crcRows, pwmRows, List.cons_append, List.nil_append,
      List.getElem_cons_succ, List.getElem_cons_zero, encode, Instr.opcode, Instr.operandWord, BitVec.getLsbD_and,
      BitVec.getLsbD_append]
    interval_cases i <;> simp
  · change Instr.setpwm (channelOf (encode (.setpwm ch on off))) (onOf (encode (.setpwm ch on off))) (offOf (encode (.setpwm ch on off))) =
      Instr.setpwm ch on off
    simp [channelOf, onOf, offOf, f0, f1, f2]
    omega

theorem fullon (ch : Nat) : Statement (.fullon ch) := by
  intro h
  simp only [Instr.WellFormed, fitsUnsigned, decide_eq_true_eq] at h
  have f0 : (encode (.fullon ch)).extractLsb' 28 4 = BitVec.ofNat 4 ch := by
    apply BitVec.eq_of_getLsbD_eq
    intro i hi
    simp only [encode, Instr.opcode, Instr.operandWord, BitVec.getLsbD_extractLsb', BitVec.getLsbD_append]
    interval_cases i <;> simp
  refine decode_encode_of_row 18 (by decide) ?_ ?_
  · apply BitVec.eq_of_getLsbD_eq
    intro i hi
    simp only [opcodeTable, pollRows, adcRows, pxaRows, usrRows, crcRows, pwmRows, List.cons_append, List.nil_append,
      List.getElem_cons_succ, List.getElem_cons_zero, encode, Instr.opcode, Instr.operandWord, BitVec.getLsbD_and,
      BitVec.getLsbD_append]
    interval_cases i <;> simp
  · change Instr.fullon (channelOf (encode (.fullon ch))) = Instr.fullon ch
    simp [channelOf, f0]
    omega

theorem fulloff (ch : Nat) : Statement (.fulloff ch) := by
  intro h
  simp only [Instr.WellFormed, fitsUnsigned, decide_eq_true_eq] at h
  have f0 : (encode (.fulloff ch)).extractLsb' 28 4 = BitVec.ofNat 4 ch := by
    apply BitVec.eq_of_getLsbD_eq
    intro i hi
    simp only [encode, Instr.opcode, Instr.operandWord, BitVec.getLsbD_extractLsb', BitVec.getLsbD_append]
    interval_cases i <;> simp
  refine decode_encode_of_row 19 (by decide) ?_ ?_
  · apply BitVec.eq_of_getLsbD_eq
    intro i hi
    simp only [opcodeTable, pollRows, adcRows, pxaRows, usrRows, crcRows, pwmRows, List.cons_append, List.nil_append,
      List.getElem_cons_succ, List.getElem_cons_zero, encode, Instr.opcode, Instr.operandWord, BitVec.getLsbD_and,
      BitVec.getLsbD_append]
    interval_cases i <;> simp
  · change Instr.fulloff (channelOf (encode (.fulloff ch))) = Instr.fulloff ch
    simp [channelOf, f0]
    omega

theorem setduty (ch : Nat) (pct : Int) : Statement (.setduty ch pct) := by
  intro h
  simp only [Instr.WellFormed, fitsUnsigned, fitsPercent, Bool.and_eq_true, decide_eq_true_eq] at h
  have f0 : (encode (.setduty ch pct)).extractLsb' 28 4 = BitVec.ofNat 4 ch := by
    apply BitVec.eq_of_getLsbD_eq
    intro i hi
    simp only [encode, Instr.opcode, Instr.operandWord, BitVec.getLsbD_extractLsb', BitVec.getLsbD_append]
    interval_cases i <;> simp
  have f1 : (encode (.setduty ch pct)).extractLsb' 0 16 = BitVec.ofInt 16 pct := by
    apply BitVec.eq_of_getLsbD_eq
    intro i hi
    simp only [encode, Instr.opcode, Instr.operandWord, BitVec.getLsbD_extractLsb', BitVec.getLsbD_append]
    interval_cases i <;> simp
  refine decode_encode_of_row 20 (by decide) ?_ ?_
  · apply BitVec.eq_of_getLsbD_eq
    intro i hi
    simp only [opcodeTable, pollRows, adcRows, pxaRows, usrRows, crcRows, pwmRows, List.cons_append, List.nil_append,
      List.getElem_cons_succ, List.getElem_cons_zero, encode, Instr.opcode, Instr.operandWord, BitVec.getLsbD_and,
      BitVec.getLsbD_append]
    interval_cases i <;> simp
  · change Instr.setduty (channelOf (encode (.setduty ch pct))) (lowHalfOf (encode (.setduty ch pct))).toInt =
      Instr.setduty ch pct
    simp only [channelOf, lowHalfOf, f0, f1, BitVec.toNat_ofNat, BitVec.toInt_ofInt, Int.bmod]
    congr 1 <;> omega

theorem sleep : Statement .sleep := fun _ => rfl

theorem wake : Statement .wake := fun _ => rfl

theorem restart : Statement .restart := fun _ => rfl

end Laws.RoundTrip

end Sys2Proof
end

