-- ==== Sys2Proof/Machine/RefTarget.lean ====
section
/-!
DEFINITION. The reference target of 20_memory.md rule R82: "not normative and not a description of any real device", one of the
many environments of rule R62, for deterministic tests. The machine does not use this file (log entry 15): the block holds no
copy of any target register (10_state.md rule R41; 20_memory.md rule R66).
-/

namespace Sys2Proof.Machine

/-! ### Byte registers as sparse memory -/

/-- The registers of one target: the non-zero ones, addresses strictly rising (log entry 15). -/
abbrev Registers := List Host.Cell

/-- What a register reads as that is not listed: 0 (95_test_vectors.md section 4: "reference target with all registers 0"). -/
def unlistedRegister : Byte := 0#8

/-- The byte at an address. -/
def Registers.read : Registers → Nat → Byte
  | [], _ => unlistedRegister
  | (k, v) :: rest, a => if k = a then v else Registers.read rest a

/-- `reg[a] <- x`, in canonical form: writing the value an unlisted register reads as removes the entry. -/
def Registers.write : Registers → Nat → Byte → Registers
  | [], a, x => if x = unlistedRegister then [] else [(a, x)]
  | (k, v) :: rest, a, x =>
    if a < k then (if x = unlistedRegister then (k, v) :: rest else (a, x) :: (k, v) :: rest)
    else if a = k then (if x = unlistedRegister then rest else (a, x) :: rest)
    else (k, v) :: Registers.write rest a x

/-- The canonical form: addresses strictly rising, no entry equal to what an unlisted register reads as. -/
def Registers.wf (m : Registers) : Bool :=
  decide ((m.map Prod.fst).Pairwise (· < ·)) && m.all fun c => c.2 != unlistedRegister

/-! ### The four targets (rule R82) -/

/-- The address of the first byte that a register address selects: for the ADC, whose registers are 16-bit words held as two
bytes, `2*pointer`; for the others the address itself (rule R82). -/
def registerIndex (d : Slot) (a : Byte) : Nat :=
  match d with
  | .adc => 2 * a.toNat
  | _ => a.toNat

/-- How many bytes a target's array has (rule R82): `reg[0..255]`; for the ADC 256 words of two bytes. -/
def arrayBytes : Slot → Nat
  | .adc => 512
  | _ => 256

/-- What the reference target does with a transaction: its answer and its registers after it. `none` for a transaction that rule
R82 does not define: another length, or bytes past the end of the array; the block issues none such. DESIGN CHOICE, unsafe (log
entry 15): a 2-byte frame `[a, x]` to the ADC, for which rule R82 gives no form of the ADC's own, writes the high byte of the word
at pointer `a`, and a read of `n` bytes of the ADC, which rule R82 gives for the two bytes of one word, answers the `n` bytes from the
high byte of the word at pointer `a` on, into the words after it for `n > 2`; the block issues neither. -/
def referenceTarget (d : Slot) (op : BusOp) (m : Registers) : Option (BusAnswer × Registers) :=
  match op with
  | .write [a, x] => some (.ok [], m.write (registerIndex d a) x)
  | .write [a, x, y] =>
    let i := registerIndex d a
    if i + 1 < arrayBytes d then some (.ok [], (m.write i x).write (i + 1) y) else none
  | .writeThenRead [a] n =>
    let i := registerIndex d a
    if i + n ≤ arrayBytes d then some (.ok ((List.range n).map fun j => m.read (i + j)), m) else none
  | _ => none

/-- The transaction that slot `d`'s next micro-step issues, if it issues one. -/
def nextTransaction (p : Params) (d : Slot) (s : State) : Option BusOp :=
  let q := s.seq.get d
  if s.guard.get d = false then none
  else match q.step with
    | .failExit => none
    | .at k =>
      match programOf p q k with
      | some (.bus op _) => some op
      | _ => none

/-- One micro-step of slot `d` against the reference target (rule R82); `none` where the target is not defined or the block
stops. -/
def referenceMicroStep (p : Params) (d : Slot) (st : State × PerSlot Registers) : Option (State × PerSlot Registers) :=
  let after := match nextTransaction p d st.1 with
    | some op => (referenceTarget d op (st.2.get d)).map fun r => (r.1, st.2.set d r.2)
    | none => some (.fail, st.2)
  match after with
  | none => none
  | some (ans, targets) =>
    match microStep p d ans st.1 with
    | .next s' => some (s', targets)
    | _ => none

end Sys2Proof.Machine
end

