-- ==== Sys2Proof/Laws/RefTarget.lean ====
section
/-!
SUPPORT. The registers of the reference target: a write is read back, leaves the others alone and keeps the canonical form.
-/

namespace Sys2Proof.Machine

theorem Registers.wf_nil : Registers.wf [] = true := by decide

/-- Every address of `m` is above `a`. -/
def Registers.Above (a : Nat) (m : Registers) : Prop := ∀ c ∈ m, a < c.1

theorem Registers.wf_cons (k : Nat) (v : Byte) (m : Registers) :
    Registers.wf ((k, v) :: m) = true ↔ v ≠ unlistedRegister ∧ Registers.Above k m ∧ Registers.wf m = true := by
  simp only [Registers.wf, Registers.Above, List.map_cons, List.pairwise_cons, List.all_cons, Bool.and_eq_true,
    decide_eq_true_eq, bne_iff_ne, ne_eq, List.mem_map, forall_exists_index, and_imp, forall_apply_eq_imp_iff₂]
  tauto

theorem Registers.above_nil (a : Nat) : Registers.Above a [] := by simp [Registers.Above]

theorem Registers.above_cons (a k : Nat) (v : Byte) (m : Registers) :
    Registers.Above a ((k, v) :: m) ↔ a < k ∧ Registers.Above a m := by
  simp only [Registers.Above, List.forall_mem_cons]

theorem Registers.above_write {b a : Nat} {x : Byte} {m : Registers} (h : Registers.Above b m) (hb : b < a) :
    Registers.Above b (Registers.write m a x) := by
  induction m with
  | nil => simp only [Registers.write]; split <;> simp [Registers.above_nil, Registers.above_cons, hb]
  | cons c m ih =>
    obtain ⟨k, v⟩ := c
    obtain ⟨hk, hm⟩ := (Registers.above_cons b k v m).1 h
    have hw := ih hm
    simp only [Registers.write]
    (repeat' split) <;> simp_all [Registers.above_cons]

/-- A write keeps the canonical form. -/
theorem Registers.wf_write {m : Registers} (a : Nat) (x : Byte) (h : m.wf = true) : (Registers.write m a x).wf = true := by
  induction m with
  | nil =>
    simp only [Registers.write]
    split
    · exact Registers.wf_nil
    · next hx => exact (Registers.wf_cons a x []).2 ⟨hx, Registers.above_nil a, Registers.wf_nil⟩
  | cons c m ih =>
    obtain ⟨k, v⟩ := c
    obtain ⟨hv, hk, hm⟩ := (Registers.wf_cons k v m).1 h
    simp only [Registers.write]
    split
    · next hak =>
      split
      · exact h
      · next hx =>
        refine (Registers.wf_cons _ _ _).2 ⟨hx, (Registers.above_cons a k v m).2 ⟨hak, fun c hc => hak.trans (hk c hc)⟩, h⟩
    · split
      · next hak =>
        subst hak
        split
        · exact hm
        · next hx => exact (Registers.wf_cons _ _ _).2 ⟨hx, hk, hm⟩
      · exact (Registers.wf_cons _ _ _).2 ⟨hv, Registers.above_write hk (by omega), ih hm⟩

theorem Registers.read_above {m : Registers} {a : Nat} (h : Registers.Above a m) : Registers.read m a = unlistedRegister := by
  induction m with
  | nil => rfl
  | cons c m ih =>
    obtain ⟨k, v⟩ := c
    obtain ⟨hk, hm⟩ := (Registers.above_cons a k v m).1 h
    have hka : k ≠ a := by omega
    simp only [Registers.read, if_neg hka]
    exact ih hm

/-- A register reads the value last written to it, and every other register what it read before. -/
theorem Registers.read_write {m : Registers} (a b : Nat) (x : Byte) (h : m.wf = true) :
    Registers.read (Registers.write m a x) b = if b = a then x else Registers.read m b := by
  induction m with
  | nil =>
    rcases eq_or_ne a b with rfl | hab
    · by_cases hx : x = unlistedRegister <;> simp [Registers.write, Registers.read, hx]
    · by_cases hx : x = unlistedRegister <;> simp [Registers.write, Registers.read, hx, hab, hab.symm]
  | cons c m ih =>
    obtain ⟨k, v⟩ := c
    obtain ⟨hv, hk, hm⟩ := (Registers.wf_cons k v m).1 h
    have ih := ih hm
    simp only [Registers.write]
    split
    · next hak =>
      split
      · next hx =>
        split
        · next hba =>
          subst hba hx
          exact Registers.read_above ((Registers.above_cons b k v m).2 ⟨hak, fun c hc => hak.trans (hk c hc)⟩)
        · rfl
      · simp only [Registers.read, eq_comm (a := a)]
    · split
      · next hak =>
        subst hak
        split
        · next hx =>
          subst hx
          split
          · next hba => subst hba; exact Registers.read_above hk
          · next hba => simp [Registers.read, Ne.symm hba]
        · rcases eq_or_ne a b with rfl | hab
          · simp [Registers.read]
          · simp [Registers.read, hab, hab.symm]
      · next hne =>
        simp only [Registers.read, ih]
        split <;> split <;> simp_all

end Sys2Proof.Machine
end

