-- ==== Sys2Proof/Laws/Sweep.lean ====
section
/-!
SUPPORT. What each transition of the sweep host can do, said once (46_sweep_host.md).
-/

namespace Sys2Proof.Machine

/-- A reading is ignored, or it comes to a sweeping host with nothing unanswered and starts one advance (rules R285, R287). -/
theorem Sweep.onReading_cases (c : SweepParams) (r : SweepReading) (h : Sweep) :
    h.onReading c r = (h, []) ∨
    (h.stopped = false ∧ h.phase = .sweeping ∧ r.rawValue ≠ absentReading ∧ h.unanswered = [] ∧
      h.onReading c r =
        ({ h with lastReading := some r, unanswered := [.advance (h.nextPosition c)] },
          [.issue (c.command (h.nextPosition c))])) := by
  unfold Sweep.onReading
  split
  · exact .inl rfl
  · rename_i awake
    rw [not_or, Bool.not_eq_true, not_not] at awake
    split
    · exact .inl rfl
    · split
      · exact .inl rfl
      · exact .inr ⟨awake.1, awake.2, ‹_›, not_not.mp ‹_›, rfl⟩

/-- An event is ignored, or it is a reading of the sensor (rules R285, R292). -/
theorem Sweep.onEvent_cases (c : SweepParams) (e : Event) (h : Sweep) :
    h.onEvent c e = (h, []) ∨ ∃ r, c.readingOf e = some r ∧ h.onEvent c e = h.onReading c r := by
  unfold Sweep.onEvent
  cases c.readingOf e with
  | none => exact .inl rfl
  | some r => exact .inr ⟨r, rfl, rfl⟩

/-- A response issues no command, and leaves the position or commits the oldest unanswered advance, the latter on
`OK` and not after `stop()` (rules R285, R288, R290). -/
theorem Sweep.onResponse_cases (c : SweepParams) (status : Status) (h : Sweep) :
    (∀ i, .issue i ∉ (h.onResponse c status).2) ∧
    (h.onResponse c status).1.unanswered = h.unanswered.tail ∧
    ((h.onResponse c status).1.currentPosition = h.currentPosition ∨
      ∃ next rest, status = .ok ∧ h.stopped = false ∧ h.unanswered = .advance next :: rest ∧
        (h.onResponse c status).1.currentPosition = next) := by
  unfold Sweep.onResponse
  split
  · next e => simp [e]
  · next rest e => refine ⟨?_, by simp [e], .inl rfl⟩; split <;> simp [sweepFailure]
  · next next rest e =>
    by_cases ok : status = .ok
    · cases halted : h.stopped with
      | true => exact ⟨by simp [ok], by simp [e], .inl (by simp [ok])⟩
      | false =>
        refine ⟨?_, by simp [e], .inr ⟨next, rest, ok, rfl, e, by simp [ok, Sweep.commit]⟩⟩
        simp only [ok, ne_eq, not_true_eq_false, if_false, Bool.false_eq_true, Sweep.commit]
        cases h.lastReading <;> simp
    · exact ⟨by simp [ok, sweepFailure], by simp [e], .inl (by simp [ok])⟩

/-- The settle delay's end issues nothing and leaves the position and what is unanswered (rule R284). -/
theorem Sweep.onSettled_frame (h : Sweep) :
    h.onSettled.2 = [] ∧ h.onSettled.1.currentPosition = h.currentPosition ∧ h.onSettled.1.direction = h.direction ∧
      h.onSettled.1.unanswered = h.unanswered := by
  unfold Sweep.onSettled
  split <;> exact ⟨rfl, rfl, rfl, rfl⟩

end Sys2Proof.Machine
end

