-- ==== Sys2Proof/Tests/Slice0.lean ====
section
/-!
SUPPORT. The model's own tests: ill-formed terms, decoding of words written out from the spec, one micro-step or acceptance step of
each command with the values of 95_test_vectors.md, and a witness for the hypotheses of each statement.
-/

open Sys2Proof Sys2Proof.Machine

namespace Sys2Proof.Tests

/-! ### Ill-formed terms: each check of `Instr.WellFormed` refuses one (30_encoding.md rule R102) -/

theorem test_illFormed_start : (Instr.start .usr 65536).WellFormed = false := by decide
theorem test_illFormed_adtrig : (Instr.adtrig 256).WellFormed = false := by decide
theorem test_illFormed_admeas : (Instr.admeas 256).WellFormed = false := by decide
theorem test_illFormed_pxled : (Instr.pxled 65536).WellFormed = false := by decide
theorem test_illFormed_setfreq : (Instr.setfreq 65536).WellFormed = false := by decide
theorem test_illFormed_setpwm_ch : (Instr.setpwm 16 0 0).WellFormed = false := by decide
theorem test_illFormed_setpwm_on : (Instr.setpwm 0 8192 0).WellFormed = false := by decide
theorem test_illFormed_setpwm_off : (Instr.setpwm 0 0 8192).WellFormed = false := by decide
theorem test_illFormed_fullon : (Instr.fullon 16).WellFormed = false := by decide
theorem test_illFormed_fulloff : (Instr.fulloff 16).WellFormed = false := by decide
theorem test_illFormed_setduty_ch : (Instr.setduty 16 0).WellFormed = false := by decide
theorem test_illFormed_setduty_low : (Instr.setduty 0 (-32769)).WellFormed = false := by decide
theorem test_illFormed_setduty_high : (Instr.setduty 0 32768).WellFormed = false := by decide
theorem test_wellFormed_setduty : (Instr.setduty 15 (-32768)).WellFormed = true := by decide

/-! ### Decoding of words written out from rules R101 and R110, a frame for each command (95_test_vectors.md section 3) -/

theorem test_decode_cfgw : decodeTableWord 40 0x0100030003 = some (.cfgw 0x03#8 0x0003#16) := by decide
theorem test_decode_cfgr : decodeTableWord 40 0x0200250000 = some (.cfgr 0x25#8) := by decide
theorem test_decode_start : decodeTableWord 40 0x03000203E8 = some (.start .usr 1000) := by decide
theorem test_decode_stop : decodeTableWord 40 0x0400030000 = some (.stop .pwm) := by decide
theorem test_decode_adtrig : decodeTableWord 40 0x10000000FF = some (.adtrig 255) := by decide
theorem test_decode_adread : decodeTableWord 40 0x1100000000 = some .adread := by decide
theorem test_decode_admeas : decodeTableWord 40 0x1200000002 = some (.admeas 2) := by decide
theorem test_decode_pxtrig : decodeTableWord 40 0x2000000001 = some (.pxtrig .prox) := by decide
theorem test_decode_pxrdy : decodeTableWord 40 0x2100000000 = some (.pxrdy .amb) := by decide
theorem test_decode_pxread : decodeTableWord 40 0x2200000001 = some (.pxread .prox) := by decide
theorem test_decode_pxmeas : decodeTableWord 40 0x2300000001 = some (.pxmeas .prox) := by decide
theorem test_decode_pxled : decodeTableWord 40 0x2400000014 = some (.pxled 20) := by decide
theorem test_decode_ustrig : decodeTableWord 40 0x3000000000 = some .ustrig := by decide
theorem test_decode_usread : decodeTableWord 40 0x3100000000 = some .usread := by decide
theorem test_decode_usmeas : decodeTableWord 40 0x3200000000 = some .usmeas := by decide
theorem test_decode_crcv : decodeTableWord 40 0x4001683A1E = some (.crcv 0x683A#16 0x1E#8 true false) := by decide
theorem test_decode_crcv_strict : decodeTableWord 40 0x4002683A7D = some (.crcv 0x683A#16 0x7D#8 false true) := by decide
theorem test_decode_setfreq : decodeTableWord 40 0x50000005F6 = some (.setfreq 1526) := by decide
theorem test_decode_setpwm : decodeTableWord 40 0x51F00C812C = some (.setpwm 15 100 300) := by decide
theorem test_decode_fullon : decodeTableWord 40 0x5200000000 = some (.fullon 0) := by decide
theorem test_decode_fulloff : decodeTableWord 40 0x53F0000000 = some (.fulloff 15) := by decide
theorem test_decode_setduty : decodeTableWord 40 0x545000FFFF = some (.setduty 5 (-1)) := by decide
theorem test_decode_sleep : decodeTableWord 40 0x5500000000 = some .sleep := by decide
theorem test_decode_wake : decodeTableWord 40 0x5600000000 = some .wake := by decide
theorem test_decode_restart : decodeTableWord 40 0x5700000000 = some .restart := by decide

/-- X19: a must-be-zero bit set. -/
theorem test_decode_mustBeZero : decodeBytes [0x20#8, 0x00#8, 0x00#8, 0x00#8, 0x02#8] = .error (.mustBeZero 0x20#8) := rfl

theorem test_decode_unknownOpcode : decodeBytes [0x58#8, 0x00#8, 0x00#8, 0x00#8, 0x00#8] = .error (.unknownOpcode 0x58#8) := rfl

theorem test_decode_fourBytes : decodeBytes [0x11#8, 0x00#8, 0x00#8, 0x00#8] = .error (.notFiveBytes 4) := rfl

/-! ### Small states -/

/-- The example parameters EP of 95_test_vectors.md section 1; the converter is left as any function there, here one is named. -/
def ep : Params :=
  { slave := fun d => match d with
      | .adc => 0x48#7
      | .pxa => 0x13#7
      | .usr => 0x70#7
      | .pwm => 0x40#7
    busName := "I2C1"
    adcLastCh := 3
    adcCfgPtr := 0x01#8
    adcMux := fun ch => BitVec.ofNat 16 (0x4000 + 0x1000 * ch)
    adcPga := 0x0200#16
    adcRate := 0x0080#16
    adcMode := 0x8100#16
    adcConvDelayMs := 10#16
    mode1Sleep := 0x10#8
    mode1Restart := 0x80#8
    proxConvert := fun raw => raw.toNat
    pollMaxReset := 5#16
    pollGapReset := 2#16 }

/-- The block after reset, under EP. -/
def start : State := State.resetWith ep

/-- The block with slot `d` at step `k` of an operation that this command opcode started, `f` setting the sequencer's other fields. -/
def running (d : Slot) (opcode : Byte) (op : Op) (k : Nat) (f : Seq → Seq) : State :=
  (start.setGuard d true).setSeq d (f { Seq.reset with op := op, opcode := opcode, step := .at k })

/-- The state after one micro-step of slot `d`; the state before it where the block stops. -/
def after (d : Slot) (a : BusAnswer) (s : State) : State :=
  match microStep ep d a s with
  | .next t => t
  | _ => s

/-- The state after a command's acceptance; the state before it where the block stops. -/
def accepted (i : Instr) (s : State) : State :=
  match exec i s with
  | .next t => t
  | _ => s

/-! ### POLL -/

/-- A15: `CFGW ADC_CHMASK, 0x0100` sets a must-be-zero bit. -/
theorem test_cfgw_mustBeZero : (accepted (.cfgw 0x00#8 0x0100#16) start).trace = [answered 0x01#8 .rangeError 0#32] := by decide
theorem test_cfgw_chmask : (accepted (.cfgw 0x00#8 0x0005#16) start).adcChmask = 0x0005#16 := by decide
/-- 47_poll.md rule R319: after a timeout in slot 1, `CFGR RES_HI[1]` gives 65535. -/
theorem test_cfgr_resHigh : (accepted (.cfgr 0x25#8) (start.setRes .pxa absentReading false)).trace =
    [answered 0x02#8 .ok 65535#32] := by decide
/-- Guard, timer and stopped bits of `SLOTSTAT[2]`. -/
theorem test_cfgr_slotstat : (accepted (.cfgr 0x12#8) { start.setGuard .usr true with
    stopped := ⟨false, false, true, false⟩, resValid := ⟨false, false, true⟩ }).trace = [answered 0x02#8 .ok 13#32] := by decide
/-- T1: `START USR, 5`. -/
theorem test_start : (accepted (.start .usr 5) start).timerEn.usr = true ∧ (accepted (.start .usr 5) start).interval.usr = 5#16 := by
  decide
theorem test_start_pwm : (accepted (.start .pwm 5) start).trace = [answered 0x03#8 .rangeError 0#32] := by decide
theorem test_stop : (accepted (.stop .pxa) { start with timerEn := ⟨true, true, true⟩ }).timerEn = ⟨true, false, true⟩ := by decide
theorem test_stop_pwm : (accepted (.stop .pwm) start).stopped = ⟨false, false, false, true⟩ := by decide
/-- A tick of a running timer on a free slot starts the cycle; on a busy one it is counted. -/
theorem test_tick_starts : (tickStep ep .usr { start with timerEn := ⟨false, false, true⟩ }).seq.usr.op = .usrCycle := by decide
theorem test_tick_skipped : (tickStep ep .usr { start.setGuard .usr true with
    timerEn := ⟨false, false, true⟩, skipCount := ⟨0#16, 0#16, 0xFFFF#16⟩ }).skipCount.usr = 0xFFFF#16 := by decide

/-! ### ADC -/

/-- `ADTRIG 1` writes `[0x01, 0xD3, 0x80]` (41_codec_adc.md rule R143). -/
theorem test_adtrig_write : (after .adc (.ok []) (running .adc 0x10#8 (.adtrig (cfgWord ep 1)) 1 fun q => { q with ch := 1#8 })).trace =
    [wrote .adc [0x01#8, 0xD3#8, 0x80#8]] := by decide
/-- A4. -/
theorem test_adtrig_absent : (acceptAdtrig ep 4 start).trace = [answered 0x10#8 .absent 0#32] := by decide
/-- A7: 65535, not -1. -/
theorem test_adread_retire : (after .adc .fail (running .adc 0x11#8 .adread 2 fun q => { q with rd := [0xFF#8, 0xFF#8] })).trace =
    [answered 0x11#8 .ok 65535#32] := by decide
/-- A8: zero-extended. -/
theorem test_adread_res : (after .adc .fail (running .adc 0x11#8 .adread 2 fun q => { q with rd := [0x80#8, 0x00#8] })).res.adc =
    32768#32 := by decide
/-- A9: the event of `ADMEAS 2`. -/
theorem test_admeas_publish : (after .adc .fail (running .adc 0x12#8 (.admeas (cfgWord ep 2) 10#16 0x48#7) 4 fun q =>
    { q with ch := 2#8, rd := [0x7F#8, 0xFF#8] })).trace = [.evt (.channelReadingDone 32767#32 2#8 0x48#8)] := by decide
/-- The response is `RES[0]` as it stands at the retire (41_codec_adc.md rule R145). -/
theorem test_admeas_response : (after .adc .fail ((running .adc 0x12#8 (.admeas (cfgWord ep 2) 10#16 0x48#7) 5 id).setRes .adc 7#32
    true)).trace = [answered 0x12#8 .ok 7#32] := by decide
/-- An absent `ADMEAS` before step 4: the publish step writes `RES[0]` again (70_reset_and_hazards.md rule R418). -/
theorem test_admeas_absentBeforePublish : (after .adc .fail (acceptAdmeas ep 4 (running .adc 0x12#8
    (.admeas (cfgWord ep 2) 10#16 0x48#7) 4 fun q => { q with rd := [0x7F#8, 0xFF#8] }))).res.adc = 32767#32 := by decide
/-- A11: the zero reading. -/
theorem test_admeas_absent : (acceptAdmeas ep 4 (start.setRes .adc 4660#32 true)).res.adc = 0#32 := by decide
/-- A13: enabled bits at or above `ADC_NCHAN` are passed over. -/
theorem test_adcCycle_passes : (after .adc .fail (running .adc 0x00#8 (.adcCycle 0xF0#8 10#16 0x48#7) 1 id)).seq.adc.step =
    .at 6 := by decide

/-! ### PXA -/

/-- X3: the other kind's trigger bit is kept. -/
theorem test_pxtrig_write : (after .pxa (.ok []) (running .pxa 0x20#8 .pxtrig 2 fun q => { q with tmp := 0x90#8 })).trace =
    [wrote .pxa [0x80#8, 0x98#8]] := by decide
theorem test_pxtrig_read : (after .pxa (.ok [0x81#8]) (running .pxa 0x20#8 .pxtrig 1 id)).lastStatus = 0x81#8 := by decide
/-- X6: 0x04 is ready for proximity and not for ambient. -/
theorem test_pxrdy_amb : (after .pxa .fail (running .pxa 0x21#8 .pxrdy 2 fun q => { q with rd := [0x04#8] })).trace =
    [answered 0x21#8 .ok 0#32] := by decide
theorem test_pxrdy_prox : (after .pxa .fail (running .pxa 0x21#8 .pxrdy 2 fun q => { q with rd := [0x04#8], k := .prox })).trace =
    [answered 0x21#8 .ok 1#32] := by decide
/-- X14. -/
theorem test_pxread_prox : (after .pxa (.ok [0x09#8, 0xC4#8]) (running .pxa 0x22#8 .pxread 1 fun q => { q with k := .prox })).trace =
    [readBack .pxa 0x87#8 [0x09#8, 0xC4#8]] := by decide
/-- X15. -/
theorem test_pxread_amb : (after .pxa .fail (running .pxa 0x22#8 .pxread 2 fun q => { q with rd := [0xFF#8, 0xFF#8] })).res.pxa =
    65535#32 := by decide
/-- X12: the proximity ready bit does not satisfy an ambient wait; with one read left it times out. -/
theorem test_pxmeas_timeout : (after .pxa (.ok [0x0C#8]) (running .pxa 0x23#8 (.pxmeas 2#16) 4 fun q => { q with n := 1#16 })).seq.pxa.exc =
    .timeout := by decide
/-- X9: a budget of 0. -/
theorem test_pxmeas_noBudget : (after .pxa .fail (running .pxa 0x23#8 (.pxmeas 2#16) 3 id)).seq.pxa.step = .failExit := by decide
/-- X16 and X18. -/
theorem test_pxled_write : (after .pxa (.ok []) (running .pxa 0x24#8 (.pxled 20#16) 1 id)).trace = [wrote .pxa [0x83#8, 0x14#8]] := by
  decide
theorem test_pxled_range : (acceptPxled 21 start).trace = [answered 0x24#8 .rangeError 0#32] := by decide
/-- X7: the fail-exit of a timeout. -/
theorem test_failExit_timeout : (after .pxa .fail (running .pxa 0x23#8 (.pxmeas 2#16) 4 fun q =>
    { q with step := .failExit, exc := .timeout })).trace =
    [.evt (.sensorException .timeout 1#8), answered 0x23#8 .timeout 0xFFFFFFFF#32] := by decide

/-! ### USR -/

/-- S1 and S5. -/
theorem test_ustrig_write : (after .usr (.ok []) (running .usr 0x30#8 .ustrig 1 id)).trace = [wrote .usr [0x00#8, 0x51#8]] := by decide
theorem test_ustrig_fails : (after .usr .fail (running .usr 0x30#8 .ustrig 1 id)).seq.usr.exc = .busError := by decide
/-- S2. -/
theorem test_usread_read : (after .usr (.ok [0x00#8, 0x7B#8]) (running .usr 0x31#8 .usread 1 id)).trace =
    [readBack .usr 0x02#8 [0x00#8, 0x7B#8]] := by decide
theorem test_usread_retire : (after .usr .fail (running .usr 0x31#8 .usread 2 fun q => { q with rd := [0x00#8, 0x7B#8] })).trace =
    [answered 0x31#8 .ok 123#32] := by decide
/-- S3. -/
theorem test_usmeas_delay : (after .usr .fail (running .usr 0x32#8 .usmeas 2 id)).trace = [.delay .usr 70#16] := by decide
theorem test_usmeas_publish : (after .usr .fail (running .usr 0x32#8 .usmeas 4 fun q => { q with rd := [0x01#8, 0x2C#8] })).trace =
    [.evt (.rangeReceived 300#32)] := by decide

/-! ### CRC (95_test_vectors.md section 3.4) -/

theorem test_crc8 : crc8 0x683A#16 = 0x7C#8 := by decide +kernel
theorem test_crc8_low : crc8 0x0001#16 = 0x31#8 := by decide +kernel
theorem test_crcDivides : crcDivides 0x683A#16 0x7C#8 = true := by decide +kernel
/-- K5 and K6. -/
theorem test_crcv_variant : (accepted (.crcv 0x683A#16 0x1E#8 true true) start).crcOk = true := by decide +kernel
theorem test_crcv_strict : (accepted (.crcv 0x683A#16 0x7C#8 true true) start).trace =
    [.evt (.sensorException .checksumError 0xFF#8), answered 0x40#8 .checksumError 0#32] := by decide +kernel

/-! ### PWM -/

/-- F1v: the response of `SETFREQ 50`, and its prescale write. -/
theorem test_setfreq_prescale : (after .pwm (.ok []) (running .pwm 0x50#8 (.setfreq (BitVec.ofNat 8 (prescale 50)) 0x10#8 0x80#8) 4 id)).trace =
    [wrote .pwm [0xFE#8, 0x79#8]] := by decide
theorem test_setfreq_range : (acceptSetfreq ep 23 start).trace = [answered 0x50#8 .rangeError 0#32] := by decide
/-- W3: `SETPWM 15, 100, 300` writes `[0x44, 0x2C]`, `[0x45, 0x01]`. -/
theorem test_setpwm_offHigh : (after .pwm (.ok []) (running .pwm 0x51#8 (.setpwm (channelBase 15) 100#16 300#16) 4 id)).trace =
    [wrote .pwm [0x45#8, 0x01#8]] := by decide
/-- W6. -/
theorem test_setpwm_range : (accepted (.setpwm 9 1 4097) start).trace = [answered 0x51#8 .rangeError 0#32] := by decide
/-- `FULLON 0` writes `[0x07, 0x10]` (45_pwm.md rule R245). -/
theorem test_fullon_onHigh : (after .pwm (.ok []) { accepted (.fullon 0) start with
    seq := ⟨Seq.reset, Seq.reset, Seq.reset, { (accepted (.fullon 0) start).seq.pwm with step := .at 2 }⟩ }).trace =
    [wrote .pwm [0x07#8, 0x10#8]] := by decide
/-- `FULLOFF 15` writes `[0x45, 0x10]` (45_pwm.md rule R246). -/
theorem test_fulloff_offHigh : (after .pwm (.ok []) { accepted (.fulloff 15) start with
    seq := ⟨Seq.reset, Seq.reset, Seq.reset, { (accepted (.fulloff 15) start).seq.pwm with step := .at 4 }⟩ }).trace =
    [wrote .pwm [0x45#8, 0x10#8]] := by decide
/-- `SETDUTY 5, 50` writes the ticks 0 and 2048 (45_pwm.md rule R250); `SETDUTY 5, 101` is ignored (rule R251). -/
theorem test_setduty_half : (accepted (.setduty 5 50) start).seq.pwm.op = .setduty 0x1A#8 0#16 2048#16 := by decide
theorem test_setduty_ignored : (accepted (.setduty 5 101) start).trace = [answered 0x54#8 .ignored 0#32] := by decide
/-- The MODE1 bytes for a read of 0x91 (95_test_vectors.md section 3.5). -/
theorem test_sleep_write : (after .pwm (.ok []) (running .pwm 0x55#8 (.sleep 0x10#8 0x80#8) 2 fun q => { q with tmp := 0x91#8 })).trace =
    [wrote .pwm [0x00#8, 0x11#8]] := by decide
theorem test_wake_write : (after .pwm (.ok []) (running .pwm 0x56#8 (.wake 0x10#8 0x80#8) 2 fun q => { q with tmp := 0x91#8 })).trace =
    [wrote .pwm [0x00#8, 0x01#8]] := by decide
theorem test_restart_write : (after .pwm (.ok []) (running .pwm 0x57#8 (.restart 0x10#8 0x80#8) 2 fun q => { q with tmp := 0x11#8 })).trace =
    [wrote .pwm [0x00#8, 0x81#8]] := by decide
/-- F5v: a PWM failure is counted, answered and not published. -/
theorem test_failExit_pwm : (after .pwm .fail (running .pwm 0x50#8 (.setfreq 121#8 0x10#8 0x80#8) 4 fun q =>
    { q with step := .failExit, exc := .busError })).trace = [answered 0x50#8 .busError 0#32] := by decide
/-- A slot whose guard is clear takes no micro-step (log entry 10). -/
theorem test_micro_idle : after .usr (.ok []) start = start := by decide

/-! ### Beside the block -/

/-- The reference target gives the ADC's word at a pointer as two bytes (20_memory.md rule R82). -/
theorem test_referenceTarget_adc : referenceTarget .adc (.write [0x01#8, 0xD3#8, 0x80#8]) [] =
    some (.ok [], [(2, 0xD3#8), (3, 0x80#8)]) := by decide
/-- The sweep of E5 and P4. -/
def sweepParams : SweepParams :=
  { minServo := 250, maxServo := 800, channel := 0, settleMs := 300, sensor := .usr, angleFrom := .new, hz := 50, interval := 5 }

/-- The actions of a driving host on these inputs, in order. -/
def driven (h : SweepDrive) : List DriveInput → List SweepAction
  | [] => []
  | i :: rest => (h.handle sweepParams i).2 ++ driven (h.handle sweepParams i).1 rest

theorem test_sweep_formulas : sweepParams.stepSize = 15 ∧ sweepParams.angle 265 = 5 ∧ sweepParams.angle 775 = 172 := by decide
/-- P4 to its first advance: `SETFREQ`, `start()`, `START USR` when the settle delay ends; a reading within the delay is ignored
(46_sweep_host.md rules R284, R287, R292). -/
theorem test_drive_sequence :
    driven (SweepDrive.initial sweepParams) [.begin, .tuned .ok, .sweep (.event (.rangeReceived 99#32)), .sweep (.response .ok),
        .sweep .settled, .sweep (.event (.sensorException .busError 2#8)), .sweep (.event (.rangeReceived 101#32)),
        .sweep (.event (.rangeReceived 102#32)), .sweep (.response .ok)] =
      [.issue (.setfreq 50), .issue (.setpwm 0 0 250), .wait 300, .issue (.start .usr 5), .issue (.setpwm 0 0 265),
       .publish (.positionFound 5 101 101#32)] := by decide
/-- The response to the positioning commits no advance: the reading before it is ignored (rule R287). -/
theorem test_sweep_positioning_unanswered :
    driven { stage := .running, sweep := { Sweep.initial sweepParams with phase := .sweeping, unanswered := [.positioning] } }
      [.sweep (.event (.rangeReceived 101#32)), .sweep (.response .busError), .sweep (.event (.rangeReceived 102#32))] =
      [.publish (.sensorException .busError 3#8), .issue (.setpwm 0 0 265)] := by decide

/-- After `stop()` an advance in flight commits nothing and publishes nothing, and the answer of `SETFREQ` starts nothing (rule R290). -/
theorem test_sweep_stop :
    ({ Sweep.initial sweepParams with stopped := true, unanswered := [.advance 265] }.onResponse sweepParams .ok).1.currentPosition = 250 ∧
    driven (SweepDrive.initial sweepParams) [.begin, .sweep .stop, .tuned .ok] = [.issue (.setfreq 50)] := by decide

/-! ### Witnesses: a concrete state and operands for the hypotheses of each statement of Obligations.lean -/

theorem witness_DecodeOfEncode : (Instr.setpwm 15 8191 8191).WellFormed = true ∧ (Instr.start .pwm 65535).WellFormed = true ∧
    (Instr.setduty 15 32767).WellFormed = true := by decide
theorem witness_EncodeOfDecode : decode 0x54F0008000#40 = .ok (.setduty 15 (-32768)) := by decide
theorem witness_OpcodeMap : ∃ r ∈ opcodeTable, 0x51F1FFFFFF#40 &&& r.mask = r.pat ∧ r.mnemonic = "SETPWM" := by decide
theorem witness_IllegalFrameAnswered_mustBeZero : ∀ r ∈ opcodeTable, 0x2000000002#40 &&& r.mask ≠ r.pat := by decide
/-- Frames whose byte 0 is the least and the greatest of each range of unlisted opcodes. -/
theorem witness_IllegalFrameAnswered_opcodes :
    (([0x0000000000#40, 0x0500000000#40, 0x0FFFFFFFFF#40, 0x1300000000#40, 0x1FFFFFFFFF#40, 0x2500000000#40, 0x2FFFFFFFFF#40,
        0x3300000000#40, 0x3FFFFFFFFF#40, 0x4100000000#40, 0x4FFFFFFFFF#40, 0x5800000000#40, 0xFFFFFFFFFF#40] : List Frame).map
      fun f : Frame => (f >>> 32).toNat) =
      [0x00, 0x05, 0x0F, 0x13, 0x1F, 0x25, 0x2F, 0x33, 0x3F, 0x41, 0x4F, 0x58, 0xFF] := by decide
theorem witness_StepRunsDecodedCommand : decode 0x1200000002#40 = .ok (.admeas 2) ∧ (Instr.admeas 2).WellFormed = true := by decide
theorem witness_StepTakesOldestInput :
    (presentFrame 0x1200000002#40 State.reset).inputs = [.cmd 0x1200000002#40] ∧ State.reset.inputs = [] := ⟨rfl, rfl⟩

/-- This block in the middle of things: slot 0 runs `ADREAD`, slot 1 `PXRDY` of proximity, the timer of slot 2 runs and the slot is
free, slot 3 is stopped and idle; the bus is about to answer slot 0. -/
def busy : State :=
  { State.reset with
    guard := ⟨true, true, false, false⟩
    timerEn := ⟨false, false, true⟩
    stopped := ⟨false, false, false, true⟩
    seq := ⟨{ Seq.reset with op := .adread, opcode := 0x11#8, step := .at 1 },
      { Seq.reset with op := .pxrdy, opcode := 0x21#8, step := .at 1, k := .prox }, Seq.reset, Seq.reset⟩
    inputs := [.micro .adc (.ok [0x12#8, 0x34#8])] }

theorem busy_inv : Inv Config.params busy where
  guard_iff_running d := by cases d <;> decide
  stopped_timer_off d := by cases d <;> decide
  res_legal d := by cases d <;> decide
  absent_not_valid d := by cases d <;> decide
  chmask_legal := by decide
  kinds_legal := by decide
  seq_ok d h := by
    cases d
    · exact ⟨rfl, ⟨by decide, by decide, rfl⟩, trivial⟩
    · exact ⟨rfl, ⟨by decide, by decide, rfl⟩, trivial⟩
    · exact absurd rfl h
    · exact absurd rfl h

theorem witness_InvariantKeptByStep : Inv Config.params busy ∧ ∃ t, step busy = .next t := ⟨busy_inv, _, rfl⟩
theorem witness_NoInputStopsTheBlock : Inv Config.params busy := busy_inv
theorem witness_BusOnlyByTheTable :
    Inv Config.params busy ∧ (∃ t, deliver (.micro .adc (.ok [0x12#8, 0x34#8])) busy = .next t) ∧
      ∃ t, deliver (.tick .usr) busy = .next t := ⟨busy_inv, ⟨_, rfl⟩, _, rfl⟩
theorem witness_StoppedIdleSlotStaysQuiet :
    Inv Config.params busy ∧ busy.stopped.get .pwm = true ∧ busy.guard.get .pwm = false ∧
      Input.reset ∉ [Input.cmd 0x5500000000#40, .micro .pwm (.ok []), .tick .usr] := ⟨busy_inv, rfl, rfl, by decide⟩
theorem witness_BusySlotIsNotDisturbed :
    busy.guard.get .adc = true ∧ (Input.cmd 0x1100000000#40) ≠ .reset ∧ (∀ a, Input.cmd 0x1100000000#40 ≠ .micro .adc a) ∧
      ∃ t, deliver (.cmd 0x1100000000#40) busy = .next t := ⟨rfl, by decide, nofun, _, rfl⟩
theorem witness_MicroStepTouchesItsSlot : ∃ t, deliver (.micro .pxa (.ok [0x04#8])) busy = .next t := ⟨_, rfl⟩
theorem witness_EveryOperationEnds :
    Inv Config.params busy ∧
      stepsLeft .adc busy ≤ ([Input.micro .adc .fail, .tick .usr, .micro .adc .fail].filter fun i =>
        match i with | .micro e _ => e == Slot.adc | _ => false).length ∧
      Input.reset ∉ [Input.micro .adc .fail, .tick .usr, .micro .adc .fail] ∧
      busy.guard.get .adc = true ∧ (busy.seq.get .adc).step = .at 1 := ⟨busy_inv, by decide, by decide, rfl, rfl⟩

/-- An absent channel, and each operand one past its range. -/
theorem witness_OperandsCheckedFirst :
    operandRefusal Config.params (.adtrig 8) = some .absent ∧ operandRefusal Config.params (.admeas 255) = some .absent ∧
      operandRefusal Config.params (.pxled 21) = some .rangeError ∧ operandRefusal Config.params (.setfreq 23) = some .rangeError ∧
      operandRefusal Config.params (.setfreq 1527) = some .rangeError ∧
      operandRefusal Config.params (.setpwm 0 4097 0) = some .rangeError ∧
      operandRefusal Config.params (.setpwm 0 0 4097) = some .rangeError ∧
      operandRefusal Config.params (.setduty 0 (-1)) = some .ignored ∧
      operandRefusal Config.params (.setduty 0 101) = some .ignored := by
  have h : Config.params.adcNchan ≤ 8 := Config.params.adcLastCh.isLt
  have h' : Config.params.adcNchan ≤ 255 := Nat.le_trans h (by decide)
  exact ⟨if_pos h, if_pos h', rfl, rfl, rfl, rfl, rfl, rfl, rfl⟩
theorem witness_StoppedThenBusyRefused :
    (commandSlot .sleep = some .pwm ∧ operandRefusal Config.params .sleep = none ∧ busy.stopped.get .pwm = true) ∧
      (commandSlot (.admeas 0) = some .adc ∧ operandRefusal Config.params (.admeas 0) = none ∧
        busy.stopped.get .adc = false ∧ busy.guard.get .adc = true) :=
  ⟨⟨rfl, rfl, rfl⟩, rfl, by simp [operandRefusal, Params.adcNchan], rfl, rfl⟩
/-- A micro-step that goes on, and one that ends the operation of a command. -/
theorem witness_OneResponsePerCommand :
    busy.guard.get .adc = true ∧ (∃ t, deliver (.micro .adc (.ok [0x12#8, 0x34#8])) busy = .next t ∧ t.guard.get .adc = true) ∧
      (busy.goto .adc 2).guard.get .adc = true ∧ ((busy.goto .adc 2).seq.get .adc).origin = .cmd ∧
      ∃ t, deliver (.micro .adc .fail) (busy.goto .adc 2) = .next t ∧ t.guard.get .adc = false :=
  ⟨rfl, ⟨_, rfl, rfl⟩, rfl, rfl, _, rfl, rfl⟩

theorem witness_RunningOperationIsLatched : (∃ reg val, Instr.cfgw 0x00#8 0x0005#16 = .cfgw reg val) ∧
    (∃ slot interval, Instr.start .usr 5 = .start slot interval) ∧ ∃ slot, Instr.stop .pwm = .stop slot :=
  ⟨⟨_, _, rfl⟩, ⟨_, _, rfl⟩, _, rfl⟩
theorem witness_StartStartsTheTimer : (0 : Nat) ≤ 65535 ∧ (1 : Nat) ≤ 65535 ∧ (65535 : Nat) ≤ 65535 := by decide
theorem witness_StopStopsTheSlot : Inv Config.params busy ∧ busy.stopped.get .pwm = true := ⟨busy_inv, rfl⟩
theorem witness_TickSkipsOrStartsACycle :
    busy.timerEn.get .adc = false ∧ (busy.timerEn.get .usr = true ∧ busy.guard.get Sensor.usr.slot = false) ∧
      (busy.setGuard .usr true).timerEn.get .usr = true ∧ (busy.setGuard .usr true).guard.get Sensor.usr.slot = true :=
  ⟨rfl, ⟨rfl, rfl⟩, rfl, rfl⟩
/-- A failed transaction, and an answer one byte too short. -/
theorem witness_FailedTransactionRaisesBusError :
    busy.guard.get .adc = true ∧ (busy.seq.get .adc).op.slot = some .adc ∧ (busy.seq.get .adc).step = .at 1 ∧
      ∃ op after, programOf Config.params (busy.seq.get .adc) 1 = some (.bus op after) ∧
        (∀ bytes, BusAnswer.fail = .ok bytes → bytes.length ≠ op.asked) ∧
        ∀ bytes, BusAnswer.ok [0x12#8] = .ok bytes → bytes.length ≠ op.asked :=
  ⟨rfl, rfl, rfl, _, _, rfl, nofun, fun bytes h => by cases h; decide⟩
/-- A bus error of the ADC, and a timeout of the PXA. -/
theorem witness_FailExitReportsAndReleases :
    ((busy.raise .adc .busError).guard.get .adc = true ∧ ((busy.raise .adc .busError).seq.get .adc).op.slot = some .adc ∧
      ((busy.raise .adc .busError).seq.get .adc).step = .failExit ∧ ((busy.raise .adc .busError).seq.get .adc).exc = .busError) ∧
    (busy.raise .pxa .timeout).guard.get .pxa = true ∧ ((busy.raise .pxa .timeout).seq.get .pxa).op.slot = some .pxa ∧
      ((busy.raise .pxa .timeout).seq.get .pxa).step = .failExit ∧ ((busy.raise .pxa .timeout).seq.get .pxa).exc = .timeout :=
  ⟨⟨rfl, rfl, rfl, rfl⟩, rfl, rfl, rfl, rfl⟩

theorem witness_AbsentChannel : Config.params.adcNchan ≤ 8 ∧ Config.params.adcNchan ≤ 255 :=
  ⟨Config.params.adcLastCh.isLt, Nat.le_trans Config.params.adcLastCh.isLt (by decide)⟩
/-- Every slot is free after reset. -/
theorem witness_Free : ∀ d, Free d State.reset := fun d => by cases d <;> exact ⟨rfl, rfl⟩
/-- An unsupported channel, and a micro-step of a running operation of slot 0. -/
theorem witness_AbsentAdmeasReachesNoRunningOperation :
    Config.params.adcNchan ≤ 8 ∧ ∃ t, deliver (.micro .adc (.ok [0x12#8, 0x34#8])) busy = .next t :=
  ⟨Config.params.adcLastCh.isLt, _, rfl⟩
/-- The least and the greatest supported channel, and channels that are not. -/
theorem witness_AdtrigTriggersAConversion :
    0 < Config.params.adcNchan ∧ Config.params.adcLastCh.val < Config.params.adcNchan ∧ Free .adc State.reset ∧
      (Config.params.adcNchan ≤ 8 ∧ (8 : Nat) ≤ 255) ∧ Config.params.adcNchan ≤ 255 ∧ (255 : Nat) ≤ 255 :=
  ⟨Nat.succ_pos _, Nat.lt_succ_self _, witness_Free _, ⟨witness_AbsentChannel.1, by decide⟩, witness_AbsentChannel.2, Nat.le_refl _⟩
theorem witness_AdreadReadsTheResult : Free .adc State.reset := witness_Free _
theorem witness_AdmeasMeasuresAChannel :
    0 < Config.params.adcNchan ∧ Config.params.adcLastCh.val < Config.params.adcNchan ∧ Free .adc State.reset ∧
      (Config.params.adcNchan ≤ 8 ∧ (8 : Nat) ≤ 255) ∧ Config.params.adcNchan ≤ 255 ∧ (255 : Nat) ≤ 255 :=
  witness_AdtrigTriggersAConversion

/-- This block with the timers on and every channel and kind enabled, with budgets of 2 and 1. -/
def polling : State :=
  { State.reset with
    timerEn := ⟨true, true, true⟩
    adcChmask := 0x00FF#16
    pxaKinds := 0x0003#16
    pollMaxAmb := 2#16
    pollMaxProx := 1#16 }

/-- A measurement whose kind is not ready at the first read and ready at the second; one ready at once. -/
def second : Measurement := { tmp := 0x80#8, waiting := [0x04#8], ready := 0x06#8, hi := 0x01#8, lo := 0x2C#8 }
def atOnce : Measurement := { tmp := 0x80#8, waiting := [], ready := 0x04#8, hi := 0xFF#8, lo := 0xFF#8 }

/-- Channel 0 is supported whatever the parameters, and is enabled there: it is the first that the cycle measures. -/
theorem witness_AdcCycleMeasuresTheMask :
    polling.timerEn.adc = true ∧ polling.guard.adc = false ∧
      ∃ rest, ((List.range 8).filter fun ch => decide (ch < Config.params.adcNchan) && polling.adcChmask.getLsbD ch) =
        [] ++ 0 :: rest := by
  have h : ([0, 1, 2, 3, 4, 5, 6, 7] : List Nat) = List.range 8 := rfl
  exact ⟨rfl, rfl, _, h ▸ List.filter_cons_of_pos (by simp [Params.adcNchan, polling])⟩
theorem witness_PxtrigReadsBeforeItWrites : Free .pxa State.reset := witness_Free _
theorem witness_PxrdyTestsTheReadyBit : Free .pxa State.reset := witness_Free _
theorem witness_PxreadReadsTheResult : Free .pxa State.reset := witness_Free _
/-- Both at the last read of the budget. -/
theorem witness_PxmeasMeasuresWhenReady :
    Free .pxa polling ∧ second.Fits .amb polling.pollMaxAmb ∧ atOnce.Fits .prox polling.pollMaxProx :=
  ⟨⟨rfl, rfl⟩, ⟨by decide, by decide, by decide⟩, by decide, by decide, by decide⟩
/-- A budget of 2, and one of 0. -/
theorem witness_PxmeasTimesOut :
    (Free .pxa polling ∧ (∀ b ∈ [0x04#8, 0x00#8], showsReady .amb b = false) ∧
      [0x04#8, 0x00#8].length = polling.pollMaxAmb.toNat) ∧
    Free .pxa { polling with pollMaxProx := 0#16 } ∧ (∀ b ∈ ([] : List Byte), showsReady .prox b = false) ∧
      ([] : List Byte).length = ({ polling with pollMaxProx := 0#16 } : State).pollMaxProx.toNat :=
  ⟨⟨⟨rfl, rfl⟩, by decide, by decide⟩, ⟨rfl, rfl⟩, by decide, by decide⟩
/-- Each transaction of a measurement fails: the trigger's with a budget of 0 too, a status read at the last of the budget. -/
theorem witness_PxmeasFailsOnTheBus :
    Free .pxa polling ∧ (∃ as last es, MeasurementFails .amb 0#16 0#16 .fail 0x00#8 as last es) ∧
      (∃ as es, MeasurementFails .prox 0#16 0#16 .fail 0x00#8 as 0x81#8 es) ∧
      (∃ as es, MeasurementFails .amb (polling.budget .amb) 0#16 .fail 0x00#8 as 0x04#8 es) ∧
      ∃ as es, MeasurementFails .amb (polling.budget .amb) 0#16 .fail 0x00#8 as 0x06#8 es :=
  ⟨⟨rfl, rfl⟩, ⟨_, _, _, .triggerRead⟩, ⟨_, _, .triggerWrite 0x81#8⟩,
    ⟨_, _, .statusRead 0x80#8 [0x04#8] (by decide) (by decide)⟩,
    ⟨_, _, .resultRead second ⟨by decide, by decide, by decide⟩⟩⟩
theorem witness_PxledSetsTheCurrent :
    Free .pxa State.reset ∧ (0 : Nat) ≤ 20 ∧ (20 : Nat) ≤ 20 ∧ (20 < 21 ∧ 21 ≤ 65535) ∧ 20 < 65535 ∧ (65535 : Nat) ≤ 65535 :=
  ⟨witness_Free _, by decide⟩
/-- Both kinds enabled, with the measurements that fit their budgets: the cycle can go on to either kind, or to its end; and the kind
after an ambient success times out, or fails. -/
theorem witness_PxaCycleMeasuresTheKinds :
    let m : Kind → Measurement := fun k => match k with
      | .amb => second
      | .prox => atOnce
    let kinds := (if polling.pxaKinds.getLsbD 0 then [Kind.amb] else []) ++ (if polling.pxaKinds.getLsbD 1 then [Kind.prox] else [])
    polling.timerEn.pxa = true ∧ polling.guard.pxa = false ∧ kinds = [] ++ [.amb, .prox] ∧ kinds = [.amb] ++ [.prox] ∧
      kinds = [.amb, .prox] ++ [] ∧ (∀ k ∈ [Kind.amb, .prox], (m k).Fits k (polling.budget k)) ∧
      ((∀ b ∈ [0x02#8], showsReady .prox b = false) ∧ [0x02#8].length = (polling.budget .prox).toNat) ∧
      ∃ as last es, MeasurementFails .prox (polling.budget .prox) 0#16 .fail 0x06#8 as last es :=
  ⟨rfl, rfl, rfl, rfl, rfl, fun k _ => by cases k <;> exact ⟨by decide, by decide, by decide⟩, ⟨by decide, by decide⟩,
    _, _, _, .triggerRead⟩
/-- A micro-step that reads the status register, and one that does not. -/
theorem witness_LastStatusFollowsTheReads :
    Inv Config.params busy ∧ (∃ t, deliver (.micro .pxa (.ok [0x04#8])) busy = .next t ∧ t.lastStatus = 0x04#8) ∧
      ∃ t, deliver (.micro .pxa .fail) busy = .next t ∧ t.lastStatus = 0x00#8 := ⟨busy_inv, ⟨_, rfl, rfl⟩, _, rfl, rfl⟩

theorem witness_UstrigBeginsARanging : Free .usr State.reset := witness_Free _
theorem witness_UsreadReadsTheRange : Free .usr State.reset := witness_Free _
theorem witness_UsmeasMeasuresTheRange : Free .usr State.reset := witness_Free _
theorem witness_UsrCycleMeasuresTheRange : polling.timerEn.usr = true ∧ polling.guard.usr = false := ⟨rfl, rfl⟩

/-- A valid pair of each variant, and the two ends of the range of bits. -/
theorem witness_FlippedBitsAreCaught :
    crcValid 0x683A#16 0x7C#8 false = true ∧ crcValid 0x683A#16 0x1E#8 true = true ∧ (0 : Fin 24) ≠ 23 := by decide +kernel

theorem witness_SetfreqSleepsWritesWakesRestarts :
    Free .pwm State.reset ∧ ((24 : Nat) ≤ 24 ∧ 24 ≤ 1526) ∧ (24 ≤ 1526 ∧ (1526 : Nat) ≤ 1526) ∧ (23 < 24 ∧ 23 ≤ 65535) ∧
      (1526 < 1527 ∧ 1527 ≤ 65535) ∧ 1526 < 65535 := ⟨witness_Free _, by decide⟩
theorem witness_PrescaleOverTheRange : (23 < 24 ∧ 23 ≤ 65535) ∧ (1526 < 1527 ∧ 1527 ≤ 65535) ∧ (24 : Nat) ≤ 24 ∧ 24 ≤ 1526 ∧
    (1526 : Nat) ≤ 1526 := by decide
/-- The least ticks, the sentinel; one tick past the range in each operand. -/
theorem witness_SetpwmWritesTheTicks :
    Free .pwm State.reset ∧ (0 ≤ 15 ∧ (0 : Nat) ≤ 4096) ∧ ((15 : Nat) ≤ 15 ∧ (4096 : Nat) ≤ 4096) ∧
      (4097 ≤ 8191 ∧ 0 ≤ 8191 ∧ (4096 < 4097 ∨ 4096 < 0)) ∧ (0 ≤ 8191 ∧ (8191 : Nat) ≤ 8191 ∧ (4096 < 0 ∨ 4096 < 8191)) :=
  ⟨witness_Free _, by decide⟩
theorem witness_FullonAndFulloffAreSetpwm : Free .pwm State.reset ∧ (0 : Nat) ≤ 15 ∧ (15 : Nat) ≤ 15 := ⟨witness_Free _, by decide⟩
theorem witness_SetdutyWritesOrIgnores :
    Free .pwm State.reset ∧ (15 : Nat) ≤ 15 ∧ ((0 : Int) ≤ 0 ∧ (0 : Int) ≤ 100) ∧ ((0 : Int) ≤ 1 ∧ (1 : Int) ≤ 100) ∧
      ((0 : Int) ≤ 99 ∧ (99 : Int) ≤ 100) ∧ ((0 : Int) ≤ 100 ∧ (100 : Int) ≤ 100) ∧ ((-1 : Int) < 0 ∨ (100 : Int) < -1) ∧
      ((101 : Int) < 0 ∨ (100 : Int) < 101) := ⟨witness_Free _, by decide⟩
theorem witness_ModeOperationsWriteMode1 : Free .pwm State.reset := witness_Free _
theorem witness_TickBytes : (0 : Nat) ≤ 4096 ∧ (4096 : Nat) ≤ 4096 := by decide
/-- An event to a host within the bounds, and the response to an advance in flight at `stop()`. -/
theorem witness_SweepStaysInBounds :
    let h : Sweep := { Sweep.initial sweepParams with phase := .sweeping, currentPosition := 800 }
    let halted : Sweep := { h.stop.1 with unanswered := [.advance 785] }
    (sweepParams.legal = true ∧ h.inBounds sweepParams = true ∧
      ∃ j, .issue j ∈ (h.handle sweepParams (.event (.rangeReceived 100#32))).2) ∧
    halted.stopped = true ∧ SweepInput.response .ok ≠ .start ∧ (halted.handle sweepParams (.response .ok)).1.unanswered = [] :=
  ⟨⟨by decide, by decide, .setpwm 0 0 800, by decide⟩, by decide⟩

end Sys2Proof.Tests
end

section
/-!
The state family: what each command's acceptance and each micro-step can do to the state, said once, and the statements on
10_state.md that follow from it.
-/

namespace Sys2Proof.Machine

/-! ### Acceptance: answered at once, or the slot started (47_poll.md rule R314) -/

/-- `t` is `s` after an answer to the command of this opcode: no guard and no sequencer changed, one response after the events. -/
structure AnsweredAtOnce (opcode : Byte) (s t : State) : Prop where
  guard : t.guard = s.guard
  seq : t.seq = s.seq
  trace : ∃ (evs : List Event) (status : Status) (value : Word),
    t.trace = s.trace ++ (evs.map .evt ++ [answered opcode status value])

/-- `t` is `s` with the free slot of the command `i` started by it, and nothing answered. -/
def StartsItsSlot (i : Instr) (s t : State) : Prop :=
  ∃ d q, commandSlot i = some d ∧ Free d s ∧ q.opcode = i.opcode ∧ q.origin = .cmd ∧ t = (s.setGuard d true).setSeq d q

/-- The two things an acceptance step can do. -/
def AnswersOrStarts (i : Instr) (s t : State) : Prop := AnsweredAtOnce i.opcode s t ∨ StartsItsSlot i s t

theorem answersOrStarts_respond (i : Instr) (s : State) (status : Status) (value : Word) :
    AnswersOrStarts i s (s.respond i.opcode status value) := .inl ⟨rfl, rfl, [], status, value, rfl⟩

/-- A command that answers after writes that reach no guard, no sequencer and no trace. -/
theorem answersOrStarts_respond_of_frame {i : Instr} {s u : State} (status : Status) (value : Word)
    (guard : u.guard = s.guard) (seq : u.seq = s.seq) (trace : u.trace = s.trace) :
    AnswersOrStarts i s (u.respond i.opcode status value) :=
  .inl ⟨guard, seq, [], status, value, by simp [trace, answered]⟩

theorem answersOrStarts_startCommand {i : Instr} {d : Slot} {latch : Seq → Seq} (s : State) (hd : commandSlot i = some d)
    (opcode_kept : ∀ q, (latch q).opcode = q.opcode) (origin_kept : ∀ q, (latch q).origin = q.origin) :
    AnswersOrStarts i s (s.startCommand d i.opcode latch) := by
  rcases s.startCommand_cases d i.opcode latch with ⟨-, h⟩ | ⟨-, -, h⟩ | ⟨hf, h⟩ <;> rw [h]
  · exact answersOrStarts_respond i s .stopped 0#32
  · exact answersOrStarts_respond i s .busy 0#32
  · exact .inr ⟨d, _, hd, hf, opcode_kept _, origin_kept _, rfl⟩

theorem answersOrStarts_ite {i : Instr} {s t u : State} {c : Prop} [Decidable c] (ht : AnswersOrStarts i s t)
    (hu : AnswersOrStarts i s u) : AnswersOrStarts i s (if c then t else u) := by
  split
  · exact ht
  · exact hu

/-- A configuration write reaches its register only. -/
theorem State.writeControl_frame {s t : State} {reg : Byte} {val : Half} (h : s.writeControl reg val = some t) :
    t.guard = s.guard ∧ t.seq = s.seq ∧ t.trace = s.trace := by
  unfold State.writeControl at h
  split at h
  case h_1 | h_2 =>
    split at h
    · cases h; exact ⟨rfl, rfl, rfl⟩
    · cases h
  case h_3 | h_4 | h_5 => cases h; exact ⟨rfl, rfl, rfl⟩
  case h_6 => cases h

theorem State.stopSlot_frame (s : State) (d : Slot) :
    (s.stopSlot d).guard = s.guard ∧ (s.stopSlot d).seq = s.seq ∧ (s.stopSlot d).trace = s.trace := by
  cases d <;> exact ⟨rfl, rfl, rfl⟩

theorem execCfgw_answersOrStarts (reg : Byte) (val : Half) (s : State) :
    ∃ t, exec (.cfgw reg val) s = .next t ∧ AnswersOrStarts (.cfgw reg val) s t := by
  cases hw : s.writeControl reg val with
  | none =>
    exact ⟨s.respond _ .rangeError 0#32, by simp [exec, execCfgw, hw], answersOrStarts_respond (.cfgw reg val) s _ _⟩
  | some u =>
    obtain ⟨guard, seq, trace⟩ := State.writeControl_frame hw
    exact ⟨u.respond _ .ok 0#32, by simp [exec, execCfgw, hw],
      answersOrStarts_respond_of_frame (i := .cfgw reg val) _ _ guard seq trace⟩

theorem execCfgr_answersOrStarts (reg : Byte) (s : State) :
    ∃ t, exec (.cfgr reg) s = .next t ∧ AnswersOrStarts (.cfgr reg) s t := by
  cases hr : s.readControl reg with
  | none => exact ⟨s.respond _ .rangeError 0#32, by simp [exec, execCfgr, hr], answersOrStarts_respond (.cfgr reg) s _ _⟩
  | some v => exact ⟨s.respond _ .ok (zext16 v), by simp [exec, execCfgr, hr], answersOrStarts_respond (.cfgr reg) s _ _⟩

theorem execStart_answersOrStarts (slot : Slot) (interval : Nat) (s : State) :
    ∃ t, exec (.start slot interval) s = .next t ∧ AnswersOrStarts (.start slot interval) s t := by
  simp only [exec, execStart]
  have refused (status : Status) := answersOrStarts_respond (.start slot interval) s status 0#32
  split
  · exact ⟨_, rfl, refused _⟩
  · split
    · exact ⟨_, rfl, refused _⟩
    · split
      · exact ⟨_, rfl, refused _⟩
      · exact ⟨_, rfl, answersOrStarts_respond_of_frame (i := .start slot interval) _ _ rfl rfl rfl⟩

theorem execStop_answersOrStarts (slot : Slot) (s : State) :
    ∃ t, exec (.stop slot) s = .next t ∧ AnswersOrStarts (.stop slot) s t := by
  obtain ⟨guard, seq, trace⟩ := s.stopSlot_frame slot
  exact ⟨_, rfl, answersOrStarts_respond_of_frame (i := .stop slot) _ _ guard seq trace⟩

theorem execCrcv_answersOrStarts (data : Half) (crc : Byte) (quirk strict : Bool) (s : State) :
    ∃ t, exec (.crcv data crc quirk strict) s = .next t ∧ AnswersOrStarts (.crcv data crc quirk strict) s t := by
  have answers (status : Status) (value : Word) :=
    answersOrStarts_respond_of_frame (i := .crcv data crc quirk strict) (s := s)
      (u := s.setCrcOk (crcValid data crc quirk)) status value rfl rfl rfl
  exact ⟨_, rfl, answersOrStarts_ite (answers _ _)
    (answersOrStarts_ite (.inl ⟨rfl, rfl, [_], _, _, List.append_assoc _ _ _⟩) (answers _ _))⟩

theorem acceptSetduty_answersOrStarts (ch : Nat) (pct : Int) (s : State) :
    AnswersOrStarts (.setduty ch pct) s (acceptSetduty ch pct s) := by
  dsimp only [acceptSetduty]
  split
  · exact answersOrStarts_startCommand s rfl (fun _ => rfl) (fun _ => rfl)
  · exact answersOrStarts_respond (.setduty ch pct) s _ _

/-- Every command, in every state, completes its acceptance step, by answering or by starting its free slot. -/
theorem exec_answersOrStarts (i : Instr) (s : State) : ∃ t, exec i s = .next t ∧ AnswersOrStarts i s t := by
  cases i with
  | cfgw reg val => exact execCfgw_answersOrStarts reg val s
  | cfgr reg => exact execCfgr_answersOrStarts reg s
  | start slot interval => exact execStart_answersOrStarts slot interval s
  | stop slot => exact execStop_answersOrStarts slot s
  | crcv data crc quirk strict => exact execCrcv_answersOrStarts data crc quirk strict s
  | adtrig =>
    exact ⟨_, rfl, answersOrStarts_ite (answersOrStarts_respond _ s _ _)
      (answersOrStarts_startCommand s rfl (fun _ => rfl) (fun _ => rfl))⟩
  | admeas =>
    exact ⟨_, rfl, answersOrStarts_ite (answersOrStarts_respond_of_frame _ _ rfl rfl rfl)
      (answersOrStarts_startCommand s rfl (fun _ => rfl) (fun _ => rfl))⟩
  | pxled | setfreq | setpwm =>
    exact ⟨_, rfl, answersOrStarts_ite (answersOrStarts_startCommand s rfl (fun _ => rfl) (fun _ => rfl))
      (answersOrStarts_respond _ s _ _)⟩
  | setduty ch pct => exact ⟨_, rfl, acceptSetduty_answersOrStarts ch pct s⟩
  | adread | pxtrig | pxrdy | pxread | pxmeas | ustrig | usread | usmeas | fullon | fulloff | sleep | wake | restart =>
    exact ⟨_, rfl, answersOrStarts_startCommand s rfl (fun _ => rfl) (fun _ => rfl)⟩

/-! ### The small lemmas of the operations that a micro-step shares -/

@[simp] theorem State.latchRead_guard (s : State) (d : Slot) (op : BusOp) (rd : List Byte) :
    (s.latchRead d op rd).guard = s.guard := by cases op <;> rfl
@[simp] theorem State.latchRead_lastStatus (s : State) (d : Slot) (op : BusOp) (rd : List Byte) :
    (s.latchRead d op rd).lastStatus = s.lastStatus := by cases op <;> rfl
@[simp] theorem State.latchRead_trace (s : State) (d : Slot) (op : BusOp) (rd : List Byte) :
    (s.latchRead d op rd).trace = s.trace := by cases op <;> rfl
@[simp] theorem State.latchRead_seq_ne (s : State) {d e : Slot} (op : BusOp) (rd : List Byte) (he : e ≠ d) :
    (s.latchRead d op rd).seq.get e = s.seq.get e := by cases op <;> simp [State.latchRead, he]

@[simp] theorem State.markAbsent_guard (s : State) (d : Slot) (kind : ExcKind) :
    (s.markAbsent d kind).guard = s.guard := by cases kind <;> cases d <;> rfl
@[simp] theorem State.markAbsent_seq (s : State) (d : Slot) (kind : ExcKind) :
    (s.markAbsent d kind).seq = s.seq := by cases kind <;> cases d <;> rfl
@[simp] theorem State.markAbsent_trace (s : State) (d : Slot) (kind : ExcKind) :
    (s.markAbsent d kind).trace = s.trace := by cases kind <;> cases d <;> rfl
@[simp] theorem State.markAbsent_lastStatus (s : State) (d : Slot) (kind : ExcKind) :
    (s.markAbsent d kind).lastStatus = s.lastStatus := by cases kind <;> cases d <;> rfl

/-- The report of an exception is a count or an event, or nothing. -/
theorem State.reportException_cases (s : State) (d : Slot) (kind : ExcKind) :
    (d = .pwm ∧ s.reportException d kind = s.countPwmError) ∨
    (d ≠ .pwm ∧ (s.seq.get d).op.isCycle = true ∧
      s.reportException d kind = s.publish (.sensorException kind d.code)) ∨
    (d ≠ .pwm ∧ (s.seq.get d).op.isCycle = false ∧ s.reportException d kind = s) := by
  unfold State.reportException
  split
  · next hd => exact .inl ⟨hd, rfl⟩
  · next hd =>
    split
    · next hc => exact .inr (.inl ⟨hd, hc, rfl⟩)
    · next hc => exact .inr (.inr ⟨hd, by simpa using hc, rfl⟩)

/-- What the end of an operation appends for the command that started it; nothing for a tick (10_state.md rules R35, R44). -/
def responseTo (q : Seq) (status : Status) (value : Word) : List TraceEntry :=
  match q.origin with
  | .cmd => [answered q.opcode status value]
  | .tick => []

theorem State.answer_eq_logged (s : State) (q : Seq) (status : Status) (value : Word) :
    s.answer q status value = s.logged (responseTo q status value) := by
  unfold State.answer responseTo
  cases q.origin
  · rfl
  · exact s.logged_nil.symm

/-! ### What the programs' assignments can write -/

/-- Where an assignment of a program stands: on the line of a bus action, or in an internal or a retire action. -/
inductive Place
  | busLine
  | internal

/-- `Writes d w f`: the assignments `f`, standing at `w` in a program of slot `d`, are made of updates of the slot's own sequencer
and of its own register (on the line of a bus action) or of its own result and of events (elsewhere). -/
inductive Writes (d : Slot) (w : Place) : (State → State) → Prop
  | none : Writes d w id
  | seq {f : State → State} (g : Seq → Seq) (hf : Writes d w f) : Writes d w fun s => (f s).setSeq d (g ((f s).seq.get d))
  | adcCurCh {f : State → State} (hw : w = .busLine) (hd : d = .adc) (ch : Byte) (hf : Writes d w f) :
    Writes d w fun s => { f s with adcCurCh := ch }
  | lastStatus {f : State → State} (hw : w = .busLine) (hd : d = .pxa) (b : Byte) (hf : Writes d w f) :
    Writes d w fun s => { f s with lastStatus := b }
  | result {f : State → State} (hw : w = .internal) (e : Sensor) (he : e.slot = d) (v : Word) (b : Bool)
    (hf : Writes d w f) : Writes d w fun s => (f s).setRes e v b
  | event {f : State → State} (hw : w = .internal) (v : Event) (hf : Writes d w f) : Writes d w fun s => (f s).publish v

namespace Writes

variable {d : Slot} {w : Place} {f : State → State}

theorem goto (k : Nat) (hf : Writes d w f) : Writes d w fun s => (f s).goto d k :=
  .seq (fun q => { q with step := .at k }) hf

theorem raise (e : Pending) (hf : Writes d w f) : Writes d w fun s => (f s).raise d e :=
  .seq (fun q => { q with exc := e, step := .failExit }) hf

theorem setTmp (v : Byte) (hf : Writes d w f) : Writes d w fun s => (f s).setTmp d v :=
  .seq (fun q => { q with tmp := v }) hf

theorem ite {c : Prop} [Decidable c] {g : State → State} (hf : Writes d w f) (hg : Writes d w g) :
    Writes d w fun s => if c then f s else g s := by
  by_cases h : c
  · simpa only [if_pos h] using hf
  · simpa only [if_neg h] using hg

theorem guard_eq (h : Writes d w f) (s : State) : (f s).guard = s.guard := by
  induction h with
  | none => rfl
  | seq g _ ih | adcCurCh _ _ _ _ ih | lastStatus _ _ _ _ ih | result _ _ _ _ _ _ ih | event _ _ _ ih => exact ih

theorem seq_ne (h : Writes d w f) (s : State) {e : Slot} (he : e ≠ d) : (f s).seq.get e = s.seq.get e := by
  induction h with
  | none => rfl
  | seq g _ ih => rw [State.setSeq_seq, PerSlot.get_set_ne _ _ _ _ he, ih]
  | adcCurCh _ _ _ _ ih | lastStatus _ _ _ _ ih | result _ _ _ _ _ _ ih | event _ _ _ ih => exact ih

/-- The line of a bus action appends nothing after its transaction. -/
theorem trace_busLine (h : Writes d .busLine f) (s : State) : (f s).trace = s.trace := by
  induction h with
  | none => rfl
  | seq _ _ ih | adcCurCh _ _ _ _ ih | lastStatus _ _ _ _ ih => exact ih
  | result hw | event hw => cases hw

/-- The other assignments append events only. -/
theorem trace_internal (h : Writes d .internal f) (s : State) :
    ∃ evs : List Event, (f s).trace = s.trace ++ evs.map .evt := by
  induction h with
  | none => exact ⟨[], (List.append_nil _).symm⟩
  | seq _ _ ih | result _ _ _ _ _ _ ih => exact ih
  | adcCurCh hw | lastStatus hw => cases hw
  | event _ v _ ih =>
    obtain ⟨evs, ih⟩ := ih
    exact ⟨evs ++ [v], by simp [ih]⟩

theorem lastStatus_internal (h : Writes d .internal f) (s : State) : (f s).lastStatus = s.lastStatus := by
  induction h with
  | none => rfl
  | seq _ _ ih | result _ _ _ _ _ _ ih | event _ _ _ ih => exact ih
  | adcCurCh hw | lastStatus hw => cases hw

end Writes

/-- An action of a program of slot `d` writes as `Writes` says, and the value of its response depends on the results only. -/
def Action.Confined (d : Slot) : Action → Prop
  | .bus _ after => ∀ rd, Writes d .busLine (after rd)
  | .delay _ _ => True
  | .internal act => Writes d .internal act
  | .retire final value => Writes d .internal final ∧ ∃ g : PerSensor Word → Word, value = fun s => g s.res

/-- Every action of the program is confined to slot `d`. -/
def ConfinedProgram (d : Slot) (program : Nat → Option Action) : Prop :=
  ∀ ⦃k act⦄, program k = some act → act.Confined d

theorem plain_confined (d : Slot) (op : BusOp) : (Action.plain op).Confined d := fun _ => .none

theorem retire_const_confined (d : Slot) (v : Word) : (Action.retire id fun _ => v).Confined d :=
  ⟨.none, fun _ => v, rfl⟩

theorem retire_result_confined (e : Sensor) {final : State → State} (h : Writes e.slot .internal final) :
    (Action.retire final fun s => s.res.get e).Confined e.slot := ⟨h, fun res => res.get e, rfl⟩

theorem setRes_writes (e : Sensor) (v : Word) (b : Bool) : Writes e.slot .internal fun s => s.setRes e v b :=
  .result rfl e rfl v b .none

theorem adcCurCh_writes (ch : Byte) : Writes .adc .busLine fun s => { s with adcCurCh := ch } := .adcCurCh rfl rfl ch .none

theorem adcPublish_writes (address : BitVec 7) (q : Seq) : Writes .adc .internal (adcPublish address q) :=
  .event rfl _ (setRes_writes .adc _ _)

theorem usrPublish_writes (q : Seq) : Writes .usr .internal (usrPublish q) := .event rfl _ (setRes_writes .usr _ _)

theorem pxaPublish_writes (p : Params) (q : Seq) : Writes .pxa .internal (pxaPublish p q) := by
  unfold pxaPublish
  cases q.k
  · exact .event rfl _ (setRes_writes .pxa _ _)
  · exact .event rfl _ (setRes_writes .pxa _ _)

theorem adcCycleSelect_writes (p : Params) (mask : Byte) (q : Seq) : Writes .adc .internal (adcCycleSelect p mask q) := by
  unfold adcCycleSelect
  cases nextChannel p mask q.cursor with
  | none => exact Writes.none.goto 6
  | some ch => exact .seq (fun q => { q with ch := BitVec.ofNat 8 ch, cursor := ch + 1, step := .at 2 }) .none

theorem pxaCycleSelect_writes (kinds : BitVec 2) (pmAmb pmProx : Half) (q : Seq) :
    Writes .pxa .internal (pxaCycleSelect kinds pmAmb pmProx q) :=
  .ite (.seq (fun q => { q with k := .amb, n := pmAmb, cursor := 1, step := .at 2 }) .none)
    (.ite (.seq (fun q => { q with k := .prox, n := pmProx, cursor := 2, step := .at 2 }) .none) (Writes.none.goto 9))

theorem waitTest_writes (k : Nat) (q : Seq) : Writes .pxa .internal (waitTest k q) :=
  .ite (Writes.none.raise .timeout) (Writes.none.goto k)

theorem waitCheck_writes (readyStep delayStep : Nat) (q : Seq) (rd : List Byte) :
    Writes .pxa .busLine (waitCheck readyStep delayStep q rd) :=
  have counted : Writes .pxa .busLine fun s : State =>
      { s with lastStatus := byteAt rd 0 }.setSeq .pxa { s.seq.pxa with n := q.n - 1#16 } :=
    .seq (fun r => { r with n := q.n - 1#16 }) (.lastStatus rfl rfl (byteAt rd 0) .none)
  .ite (counted.goto readyStep) (.ite (counted.raise .timeout) (counted.goto delayStep))

theorem statusToTmp_writes (rd : List Byte) : Writes .pxa .busLine (statusToTmp rd) :=
  (Writes.none.lastStatus rfl rfl (byteAt rd 0)).setTmp (byteAt rd 0)

theorem modeToTmp_writes (rd : List Byte) : Writes .pwm .busLine (modeToTmp rd) := Writes.none.setTmp (byteAt rd 0)

/-! ### Each program is confined to its slot -/

theorem adtrigProgram_confined (p : Params) (cfg : Half) (q : Seq) : ConfinedProgram .adc (adtrigProgram p cfg q) := by
  intro k act h
  unfold adtrigProgram at h
  split at h <;> cases h
  · exact fun _ => adcCurCh_writes q.ch
  · exact retire_const_confined _ _

theorem adreadProgram_confined (q : Seq) : ConfinedProgram .adc (adreadProgram q) := by
  intro k act h
  unfold adreadProgram at h
  split at h <;> cases h
  · exact plain_confined _ _
  · exact retire_result_confined .adc (setRes_writes .adc _ _)

theorem admeasProgram_confined (p : Params) (cfg delayMs : Half) (address : BitVec 7) (q : Seq) :
    ConfinedProgram .adc (admeasProgram p cfg delayMs address q) := by
  intro k act h
  unfold admeasProgram at h
  split at h <;> cases h
  · exact fun _ => adcCurCh_writes q.ch
  · exact trivial
  · exact plain_confined _ _
  · exact adcPublish_writes address q
  · exact retire_result_confined .adc .none

theorem adcCycleProgram_confined (p : Params) (mask : Byte) (delayMs : Half) (address : BitVec 7) (q : Seq) :
    ConfinedProgram .adc (adcCycleProgram p mask delayMs address q) := by
  intro k act h
  unfold adcCycleProgram at h
  split at h <;> cases h
  · exact adcCycleSelect_writes p mask q
  · exact fun _ => adcCurCh_writes q.ch
  · exact trivial
  · exact plain_confined _ _
  · exact (adcPublish_writes address q).goto 1
  · exact retire_const_confined _ _

theorem pxtrigProgram_confined (q : Seq) : ConfinedProgram .pxa (pxtrigProgram q) := by
  intro k act h
  unfold pxtrigProgram at h
  split at h <;> cases h
  · exact statusToTmp_writes
  · exact plain_confined _ _
  · exact retire_const_confined _ _

theorem pxrdyProgram_confined (q : Seq) : ConfinedProgram .pxa (pxrdyProgram q) := by
  intro k act h
  unfold pxrdyProgram at h
  split at h <;> cases h
  · exact fun rd => .lastStatus rfl rfl (byteAt rd 0) .none
  · exact retire_const_confined _ _

theorem pxreadProgram_confined (q : Seq) : ConfinedProgram .pxa (pxreadProgram q) := by
  intro k act h
  unfold pxreadProgram at h
  split at h <;> cases h
  · exact plain_confined _ _
  · exact retire_result_confined .pxa (setRes_writes .pxa _ _)

theorem pxmeasProgram_confined (p : Params) (gapMs : Half) (q : Seq) : ConfinedProgram .pxa (pxmeasProgram p gapMs q) := by
  intro k act h
  unfold pxmeasProgram at h
  split at h <;> cases h
  · exact statusToTmp_writes
  · exact plain_confined _ _
  · exact waitTest_writes 4 q
  · exact waitCheck_writes 6 5 q
  · exact trivial
  · exact plain_confined _ _
  · exact pxaPublish_writes p q
  · exact retire_result_confined .pxa .none

theorem pxledProgram_confined (units : Half) : ConfinedProgram .pxa (pxledProgram units) := by
  intro k act h
  unfold pxledProgram at h
  split at h <;> cases h
  · exact plain_confined _ _
  · exact retire_const_confined _ _

theorem pxaCycleProgram_confined (p : Params) (kinds : BitVec 2) (pmAmb pmProx gapMs : Half) (q : Seq) :
    ConfinedProgram .pxa (pxaCycleProgram p kinds pmAmb pmProx gapMs q) := by
  intro k act h
  unfold pxaCycleProgram at h
  split at h <;> cases h
  · exact pxaCycleSelect_writes kinds pmAmb pmProx q
  · exact statusToTmp_writes
  · exact plain_confined _ _
  · exact waitTest_writes 5 q
  · exact waitCheck_writes 7 6 q
  · exact trivial
  · exact plain_confined _ _
  · exact (pxaPublish_writes p q).goto 1
  · exact retire_const_confined _ _

theorem ustrigProgram_confined : ConfinedProgram .usr ustrigProgram := by
  intro k act h
  unfold ustrigProgram at h
  split at h <;> cases h
  · exact plain_confined _ _
  · exact retire_const_confined _ _

theorem usreadProgram_confined (q : Seq) : ConfinedProgram .usr (usreadProgram q) := by
  intro k act h
  unfold usreadProgram at h
  split at h <;> cases h
  · exact plain_confined _ _
  · exact retire_result_confined .usr (setRes_writes .usr _ _)

theorem usmeasProgram_confined (q : Seq) : ConfinedProgram .usr (usmeasProgram q) := by
  intro k act h
  unfold usmeasProgram at h
  split at h <;> cases h
  · exact plain_confined _ _
  · exact trivial
  · exact plain_confined _ _
  · exact usrPublish_writes q
  · exact retire_result_confined .usr .none

theorem usrCycleProgram_confined (q : Seq) : ConfinedProgram .usr (usrCycleProgram q) := by
  intro k act h
  unfold usrCycleProgram at h
  split at h <;> cases h
  · exact plain_confined _ _
  · exact trivial
  · exact plain_confined _ _
  · exact usrPublish_writes q
  · exact retire_const_confined _ _

theorem setfreqProgram_confined (v slp rst : Byte) (q : Seq) : ConfinedProgram .pwm (setfreqProgram v slp rst q) := by
  intro k act h
  unfold setfreqProgram at h
  split at h <;> cases h
  case h_1 | h_5 | h_8 => exact modeToTmp_writes
  case h_2 | h_4 | h_6 | h_9 => exact plain_confined _ _
  case h_3 | h_7 | h_10 => exact trivial
  case h_11 => exact retire_const_confined _ _

theorem tickProgram_confined (base : Byte) (on off : Half) (value : Word) :
    ConfinedProgram .pwm (tickProgram base on off value) := by
  intro k act h
  unfold tickProgram at h
  split at h <;> cases h
  case h_1 | h_2 | h_3 | h_4 => exact plain_confined _ _
  case h_5 => exact retire_const_confined _ _

theorem modeProgram_confined (byte : Byte → Byte) (q : Seq) : ConfinedProgram .pwm (modeProgram byte q) := by
  intro k act h
  unfold modeProgram at h
  split at h <;> cases h
  · exact modeToTmp_writes
  · exact plain_confined _ _
  · exact trivial
  · exact retire_const_confined _ _

/-- The program of an operation is confined to the slot whose sequencer runs it. -/
theorem programOf_confined (p : Params) {q : Seq} {d : Slot} (ho : q.op.slot = some d) :
    ConfinedProgram d (programOf p q) := by
  unfold programOf
  cases hq : q.op <;> rw [hq] at ho <;> cases ho
  case adtrig => exact adtrigProgram_confined ..
  case adread => exact adreadProgram_confined ..
  case admeas => exact admeasProgram_confined ..
  case adcCycle => exact adcCycleProgram_confined ..
  case pxtrig => exact pxtrigProgram_confined ..
  case pxrdy => exact pxrdyProgram_confined ..
  case pxread => exact pxreadProgram_confined ..
  case pxmeas => exact pxmeasProgram_confined ..
  case pxaCycle => exact pxaCycleProgram_confined ..
  case pxled => exact pxledProgram_confined ..
  case ustrig => exact ustrigProgram_confined
  case usread => exact usreadProgram_confined ..
  case usmeas => exact usmeasProgram_confined ..
  case usrCycle => exact usrCycleProgram_confined ..
  case setfreq => exact setfreqProgram_confined ..
  case setpwm | fullon | fulloff | setduty => exact tickProgram_confined ..
  case sleep | wake | restart => exact modeProgram_confined ..

end Sys2Proof.Machine
end

section
/-!
What one micro-step of a busy slot does, from the confinement of the programs: it goes on or it ends its operation; it does not
depend on the configuration; in slot 1 it keeps `last_status` with the reads of register 0x80.
-/

namespace Sys2Proof.Machine

/-! ### A micro-step goes on with its operation or ends it (10_state.md rules R34, R35; 60_exceptions.md rule R366) -/

/-- `t` is `s` after a micro-step of slot `d` that does not end the operation: it answers nothing. -/
structure Continues (d : Slot) (s t : State) : Prop where
  guard : t.guard = s.guard
  seq_ne : ∀ e, e ≠ d → t.seq.get e = s.seq.get e
  trace : ∃ es, t.trace = s.trace ++ es ∧ es.filter TraceEntry.isRsp = []

/-- `t` is `s` after the micro-step of slot `d` that ends the operation: it answers the command that started it, if one did. -/
structure Ends (d : Slot) (s t : State) : Prop where
  guard : t.guard = s.guard.set d false
  seq_ne : ∀ e, e ≠ d → t.seq.get e = s.seq.get e
  lastStatus : t.lastStatus = s.lastStatus
  trace : ∃ (evs : List Event) (status : Status) (value : Word),
    t.trace = s.trace ++ (evs.map .evt ++ responseTo (s.seq.get d) status value)

theorem filter_isRsp_events (evs : List Event) : (evs.map TraceEntry.evt).filter TraceEntry.isRsp = [] := by
  simp [List.filter_eq_nil_iff, TraceEntry.isRsp]

theorem filter_isRsp_responseTo (q : Seq) (status : Status) (value : Word) :
    (responseTo q status value).filter TraceEntry.isRsp = responseTo q status value := by
  unfold responseTo
  cases q.origin <;> rfl

theorem perform_bus_continues {d : Slot} {op : BusOp} {after : List Byte → State → State}
    (h : (Action.bus op after).Confined d) (s : State) (k : Nat) (ans : BusAnswer) :
    Continues d s (s.perform d k ans (.bus op after)) := by
  cases ha : answerBytes op.asked ans with
  | some rd =>
    rw [State.perform_bus_ok after ha]
    exact
      { guard := by simp [(h rd).guard_eq]
        seq_ne := fun e he => by simp [(h rd).seq_ne _ he, he]
        trace := ⟨[.bus d op (some rd)], by simp [(h rd).trace_busLine], rfl⟩ }
  | none =>
    rw [State.perform_bus_fail after ha]
    exact ⟨rfl, fun e he => by simp [he], [.bus d op none], rfl, rfl⟩

theorem perform_delay_continues (s : State) (d : Slot) (k : Nat) (ans : BusAnswer) (ms : Half) (next : Nat) :
    Continues d s (s.perform d k ans (.delay ms next)) :=
  ⟨rfl, fun e he => by simp [State.perform_delay, he], [.delay d ms], rfl, rfl⟩

theorem perform_internal_continues {d : Slot} {act : State → State} (h : (Action.internal act).Confined d) (s : State)
    (k : Nat) (ans : BusAnswer) : Continues d s (s.perform d k ans (.internal act)) := by
  rw [State.perform_internal]
  obtain ⟨evs, trace⟩ := Writes.trace_internal h (s.goto d (k + 1))
  exact ⟨Writes.guard_eq h _, fun e he => by simp [Writes.seq_ne h _ he, he], _, trace, filter_isRsp_events evs⟩

theorem retire_ends {d : Slot} {final : State → State} {value : State → Word} (h : (Action.retire final value).Confined d)
    (s : State) : Ends d s (s.retire d final value) := by
  obtain ⟨writes, -⟩ := h
  obtain ⟨evs, trace⟩ := writes.trace_internal s
  rw [State.retire, State.answer_eq_logged]
  exact
    { guard := by simp [writes.guard_eq]
      seq_ne := fun e he => by simp [writes.seq_ne s he, he]
      lastStatus := by simp [writes.lastStatus_internal]
      trace := ⟨evs, .ok, _, by simp [trace]; rfl⟩ }

/-- The report of an exception reaches no guard, no sequencer and not `last_status`, and appends events only. -/
theorem State.reportException_frame (s : State) (d : Slot) (kind : ExcKind) :
    (s.reportException d kind).guard = s.guard ∧ (s.reportException d kind).seq = s.seq ∧
      (s.reportException d kind).lastStatus = s.lastStatus ∧
      ∃ evs : List Event, (s.reportException d kind).trace = s.trace ++ evs.map .evt := by
  rcases s.reportException_cases d kind with ⟨-, h⟩ | ⟨-, -, h⟩ | ⟨-, -, h⟩ <;> rw [h]
  · exact ⟨rfl, rfl, rfl, [], (List.append_nil _).symm⟩
  · exact ⟨rfl, rfl, rfl, [_], rfl⟩
  · exact ⟨rfl, rfl, rfl, [], (List.append_nil _).symm⟩

theorem failExit_ends (s : State) (d : Slot) (kind : ExcKind) (status : Status) (value : Word) :
    Ends d s (s.failExit d kind status value) := by
  obtain ⟨guard, seq, lastStatus, evs, trace⟩ := (s.markAbsent d kind).reportException_frame d kind
  rw [State.failExit, State.answer_eq_logged]
  exact
    { guard := by simp [guard]
      seq_ne := fun e he => by simp [seq, he]
      lastStatus := by simp [lastStatus]
      trace := ⟨evs, status, value, by simp [trace]⟩ }

/-- A micro-step of a busy slot goes on with its operation or ends it. -/
theorem microStep_continues_or_ends {p : Params} {d : Slot} {s t : State} {ans : BusAnswer} (hg : s.guard.get d = true)
    (h : microStep p d ans s = .next t) : Continues d s t ∨ Ends d s t := by
  rcases microStep_cases h with ⟨hidle, -⟩ | ⟨-, ho, ⟨k, act, -, hact, rfl⟩ | ⟨-, -, rfl⟩ | ⟨-, -, rfl⟩⟩
  · rw [hg] at hidle; cases hidle
  · have confined := programOf_confined p ho hact
    cases act with
    | bus op after => exact .inl (perform_bus_continues confined s k ans)
    | delay ms next => exact .inl (perform_delay_continues s d k ans ms next)
    | internal act => exact .inl (perform_internal_continues confined s k ans)
    | retire final value => exact .inr (retire_ends confined s)
  · exact .inr (failExit_ends ..)
  · exact .inr (failExit_ends ..)

/-- A micro-step of one slot leaves the guard and the sequencer of another. -/
theorem microStep_other_slot {p : Params} {d e : Slot} {s t : State} {ans : BusAnswer} (he : e ≠ d)
    (h : microStep p d ans s = .next t) : t.guard.get e = s.guard.get e ∧ t.seq.get e = s.seq.get e := by
  cases hg : s.guard.get d with
  | false =>
    rw [microStep_idle ans hg] at h
    cases h
    exact ⟨rfl, rfl⟩
  | true =>
    rcases microStep_continues_or_ends hg h with hc | hc
    · exact ⟨by rw [hc.guard], hc.seq_ne e he⟩
    · exact ⟨by rw [hc.guard, PerSlot.get_set_ne _ _ _ _ he], hc.seq_ne e he⟩

/-! ### The configuration of a running operation is latched (10_state.md rule R36) -/

/-- A value for everything that `CFGW`, `START` and `STOP` write. -/
structure Settings where
  adcChmask : Half
  pxaKinds : Half
  pollMaxAmb : Half
  pollMaxProx : Half
  pollGapMs : Half
  timerEn : PerSensor Bool
  interval : PerSensor Half
  stopped : PerSlot Bool

/-- `s` with these settings. -/
def State.reconfigure (s : State) (c : Settings) : State :=
  { s with adcChmask := c.adcChmask, pxaKinds := c.pxaKinds, pollMaxAmb := c.pollMaxAmb, pollMaxProx := c.pollMaxProx,
           pollGapMs := c.pollGapMs, timerEn := c.timerEn, interval := c.interval, stopped := c.stopped }

/-- An outcome with these settings in its next state. -/
def reconfigureOutcome (c : Settings) : Host.Outcome State Fault Refusal → Host.Outcome State Fault Refusal
  | .next t => .next (t.reconfigure c)
  | .fault r => .fault r
  | .refused r => .refused r

@[simp] theorem State.reconfigure_guard (s : State) (c : Settings) : (s.reconfigure c).guard = s.guard := rfl
@[simp] theorem State.reconfigure_seq (s : State) (c : Settings) : (s.reconfigure c).seq = s.seq := rfl

theorem Writes.reconfigure {d : Slot} {w : Place} {f : State → State} (h : Writes d w f) (c : Settings) (s : State) :
    f (s.reconfigure c) = (f s).reconfigure c := by
  induction h with
  | none => rfl
  | seq _ _ ih | adcCurCh _ _ _ _ ih | lastStatus _ _ _ _ ih | result _ _ _ _ _ _ ih | event _ _ _ ih =>
    simp only [ih]; rfl

theorem State.latchRead_reconfigure (s : State) (c : Settings) (d : Slot) (op : BusOp) (rd : List Byte) :
    (s.reconfigure c).latchRead d op rd = (s.latchRead d op rd).reconfigure c := by cases op <;> rfl

theorem State.answer_reconfigure (s : State) (c : Settings) (q : Seq) (status : Status) (value : Word) :
    (s.reconfigure c).answer q status value = (s.answer q status value).reconfigure c := by
  simp only [State.answer_eq_logged]
  rfl

theorem State.markAbsent_reconfigure (s : State) (c : Settings) (d : Slot) (kind : ExcKind) :
    (s.reconfigure c).markAbsent d kind = (s.markAbsent d kind).reconfigure c := by cases kind <;> cases d <;> rfl

theorem State.reportException_reconfigure (s : State) (c : Settings) (d : Slot) (kind : ExcKind) :
    (s.reconfigure c).reportException d kind = (s.reportException d kind).reconfigure c := by
  by_cases hd : d = .pwm
  · simp only [State.reportException, if_pos hd]
    rfl
  · by_cases hc : (s.seq.get d).op.isCycle = true
    · simp [State.reportException, hd, hc]
      rfl
    · simp [State.reportException, hd, hc]

theorem State.failExit_reconfigure (s : State) (c : Settings) (d : Slot) (kind : ExcKind) (status : Status) (value : Word) :
    (s.reconfigure c).failExit d kind status value = (s.failExit d kind status value).reconfigure c := by
  simp only [State.failExit, State.markAbsent_reconfigure, State.reportException_reconfigure, State.reconfigure_seq]
  exact State.answer_reconfigure
    ((((s.markAbsent d kind).reportException d kind).release d).clearException d) c _ status value

theorem State.perform_reconfigure {d : Slot} {act : Action} (h : act.Confined d) (s : State) (c : Settings) (k : Nat)
    (ans : BusAnswer) : (s.reconfigure c).perform d k ans act = (s.perform d k ans act).reconfigure c := by
  cases act with
  | bus op after =>
    cases ha : answerBytes op.asked ans with
    | some rd =>
      rw [State.perform_bus_ok after ha, State.perform_bus_ok after ha, ← (h rd).reconfigure]
      exact congrArg (fun u : State => after rd (u.goto d (k + 1))) (State.latchRead_reconfigure (s.emit _) c d op rd)
    | none => rw [State.perform_bus_fail after ha, State.perform_bus_fail after ha]; rfl
  | delay ms next => rfl
  | internal act => exact Writes.reconfigure h c (s.goto d (k + 1))
  | retire final value =>
    obtain ⟨writes, g, rfl⟩ := h
    simp only [State.perform_retire, State.retire, writes.reconfigure, State.reconfigure_seq]
    exact State.answer_reconfigure ((final s).release d) c _ .ok _

/-- A micro-step does the same whatever the settings hold, and leaves them as they are. -/
theorem microStep_reconfigure (p : Params) (d : Slot) (ans : BusAnswer) (s : State) (c : Settings) :
    microStep p d ans (s.reconfigure c) = reconfigureOutcome c (microStep p d ans s) := by
  by_cases hg : s.guard.get d = false
  · simp [microStep, hg, reconfigureOutcome]
  · by_cases ho : (s.seq.get d).op.slot = some d
    · rcases hk : (s.seq.get d).step with k | _
      · cases ha : programOf p (s.seq.get d) k with
        | none => simp [microStep, hg, ho, hk, ha, reconfigureOutcome]
        | some act =>
          have confined := programOf_confined p ho ha
          simp [microStep, hg, ho, hk, ha, reconfigureOutcome, State.perform_reconfigure confined]
      · cases he : (s.seq.get d).exc <;>
          simp [microStep, hg, ho, hk, he, reconfigureOutcome, State.failExit_reconfigure]
    · simp [microStep, hg, ho, reconfigureOutcome]

/-! ### `last_status` and the reads of register 0x80 (10_state.md rule R27) -/

/-- On the line of a read of register 0x80 the byte read is assigned to `last_status`, on another transaction's line nothing is. -/
def Action.TracksStatus : Action → Prop
  | .bus op after =>
    (op = framePxaStatus ∧ ∀ rd s, (after rd s).lastStatus = byteAt rd 0) ∨
    (op ≠ framePxaStatus ∧ ∀ rd s, (after rd s).lastStatus = s.lastStatus)
  | _ => True

theorem statusToTmp_lastStatus (rd : List Byte) (s : State) : (statusToTmp rd s).lastStatus = byteAt rd 0 := rfl

theorem waitCheck_lastStatus (readyStep delayStep : Nat) (q : Seq) (rd : List Byte) (s : State) :
    (waitCheck readyStep delayStep q rd s).lastStatus = byteAt rd 0 := by
  dsimp only [waitCheck]
  split
  · rfl
  · split <;> rfl

theorem framePxaResult_ne_status (k : Kind) : framePxaResult k ≠ framePxaStatus := by cases k <;> decide

theorem statusToTmp_tracksStatus : (Action.bus framePxaStatus statusToTmp).TracksStatus :=
  .inl ⟨rfl, statusToTmp_lastStatus⟩

theorem waitCheck_tracksStatus (readyStep delayStep : Nat) (q : Seq) :
    (Action.bus framePxaStatus (waitCheck readyStep delayStep q)).TracksStatus :=
  .inl ⟨rfl, waitCheck_lastStatus readyStep delayStep q⟩

theorem plain_tracksStatus {op : BusOp} (h : op ≠ framePxaStatus) : (Action.plain op).TracksStatus :=
  .inr ⟨h, fun _ _ => rfl⟩

theorem pxtrigProgram_tracksStatus {q : Seq} {k : Nat} {act : Action} (h : pxtrigProgram q k = some act) :
    act.TracksStatus := by
  unfold pxtrigProgram at h
  split at h <;> cases h
  · exact statusToTmp_tracksStatus
  · exact plain_tracksStatus nofun
  · exact trivial

theorem pxrdyProgram_tracksStatus {q : Seq} {k : Nat} {act : Action} (h : pxrdyProgram q k = some act) :
    act.TracksStatus := by
  unfold pxrdyProgram at h
  split at h <;> cases h
  · exact .inl ⟨rfl, fun _ _ => rfl⟩
  · exact trivial

theorem pxreadProgram_tracksStatus {q : Seq} {k : Nat} {act : Action} (h : pxreadProgram q k = some act) :
    act.TracksStatus := by
  unfold pxreadProgram at h
  split at h <;> cases h
  · exact plain_tracksStatus (framePxaResult_ne_status q.k)
  · exact trivial

theorem pxmeasProgram_tracksStatus {p : Params} {gapMs : Half} {q : Seq} {k : Nat} {act : Action}
    (h : pxmeasProgram p gapMs q k = some act) : act.TracksStatus := by
  unfold pxmeasProgram at h
  split at h <;> cases h
  case h_1 => exact statusToTmp_tracksStatus
  case h_2 => exact plain_tracksStatus nofun
  case h_4 => exact waitCheck_tracksStatus 6 5 q
  case h_6 => exact plain_tracksStatus (framePxaResult_ne_status q.k)
  case h_3 | h_5 | h_7 | h_8 => exact trivial

theorem pxledProgram_tracksStatus {units : Half} {k : Nat} {act : Action} (h : pxledProgram units k = some act) :
    act.TracksStatus := by
  unfold pxledProgram at h
  split at h <;> cases h
  · exact plain_tracksStatus nofun
  · exact trivial

theorem pxaCycleProgram_tracksStatus {p : Params} {kinds : BitVec 2} {pmAmb pmProx gapMs : Half} {q : Seq} {k : Nat}
    {act : Action} (h : pxaCycleProgram p kinds pmAmb pmProx gapMs q k = some act) : act.TracksStatus := by
  unfold pxaCycleProgram at h
  split at h <;> cases h
  case h_2 => exact statusToTmp_tracksStatus
  case h_3 => exact plain_tracksStatus nofun
  case h_5 => exact waitCheck_tracksStatus 7 6 q
  case h_7 => exact plain_tracksStatus (framePxaResult_ne_status q.k)
  case h_1 | h_4 | h_6 | h_8 | h_9 => exact trivial

/-- Every program of slot 1 keeps `last_status` with its reads of register 0x80. -/
theorem programOf_tracksStatus {p : Params} {q : Seq} {k : Nat} {act : Action} (ho : q.op.slot = some .pxa)
    (h : programOf p q k = some act) : act.TracksStatus := by
  unfold programOf at h
  cases hq : q.op <;> rw [hq] at ho h <;> cases ho
  case pxtrig => exact pxtrigProgram_tracksStatus h
  case pxrdy => exact pxrdyProgram_tracksStatus h
  case pxread => exact pxreadProgram_tracksStatus h
  case pxmeas => exact pxmeasProgram_tracksStatus h
  case pxaCycle => exact pxaCycleProgram_tracksStatus h
  case pxled => exact pxledProgram_tracksStatus h

/-- The micro-step appends a successful read of register 0x80 and `last_status` is the byte read. -/
def ReadsStatus (s t : State) : Prop := ∃ b, t.trace = s.trace ++ [readBack .pxa 0x80#8 [b]] ∧ t.lastStatus = b

/-- The micro-step appends no such read and leaves `last_status`. -/
def KeepsStatus (s t : State) : Prop :=
  t.lastStatus = s.lastStatus ∧ ∃ es, t.trace = s.trace ++ es ∧ ∀ b, readBack .pxa 0x80#8 [b] ∉ es

theorem readBack_status_eq (b : Byte) : readBack .pxa 0x80#8 [b] = .bus .pxa framePxaStatus (some [b]) := rfl

theorem readBack_notMem_events (evs : List Event) (b : Byte) : readBack .pxa 0x80#8 [b] ∉ evs.map TraceEntry.evt := by
  simp [readBack]

theorem readBack_notMem_responseTo (q : Seq) (status : Status) (value : Word) (b : Byte) :
    readBack .pxa 0x80#8 [b] ∉ responseTo q status value := by
  unfold responseTo
  cases q.origin <;> simp [readBack, answered]

theorem Ends.keepsStatus {d : Slot} {s t : State} (h : Ends d s t) : KeepsStatus s t := by
  obtain ⟨evs, status, value, trace⟩ := h.trace
  refine ⟨h.lastStatus, _, trace, fun b hb => ?_⟩
  rcases List.mem_append.mp hb with hb | hb
  · exact readBack_notMem_events evs b hb
  · exact readBack_notMem_responseTo _ status value b hb

/-- A bus action that keeps `last_status` with its reads, performed with any answer. -/
theorem perform_bus_status {op : BusOp} {after : List Byte → State → State} (confined : (Action.bus op after).Confined .pxa)
    (tracks : (Action.bus op after).TracksStatus) (s : State) (k : Nat) (ans : BusAnswer) :
    ReadsStatus s (s.perform .pxa k ans (.bus op after)) ∨ KeepsStatus s (s.perform .pxa k ans (.bus op after)) := by
  cases ha : answerBytes op.asked ans with
  | none =>
    rw [State.perform_bus_fail after ha]
    exact .inr ⟨rfl, [.bus .pxa op none], rfl, by simp [readBack]⟩
  | some rd =>
    rw [State.perform_bus_ok after ha]
    rcases tracks with ⟨rfl, status⟩ | ⟨hop, status⟩
    · obtain ⟨-, hlen⟩ := answerBytes_eq_some.mp ha
      obtain ⟨b, rfl⟩ := List.length_eq_one_iff.mp hlen
      exact .inl ⟨b, by simp [(confined [b]).trace_busLine, readBack_status_eq], status [b] _⟩
    · refine .inr ⟨by simp [status], [.bus .pxa op (some rd)], by simp [(confined rd).trace_busLine], fun b hb => hop ?_⟩
      rw [readBack_status_eq, List.mem_singleton] at hb
      injection hb with _ hop' _
      exact hop'.symm

/-- What a micro-step of slot 1 does to `last_status`. -/
theorem microStep_pxa_status {p : Params} {s t : State} {ans : BusAnswer} (h : microStep p .pxa ans s = .next t) :
    ReadsStatus s t ∨ KeepsStatus s t := by
  rcases microStep_cases h with ⟨-, rfl⟩ | ⟨-, ho, ⟨k, act, -, hact, rfl⟩ | ⟨-, -, rfl⟩ | ⟨-, -, rfl⟩⟩
  · exact .inr ⟨rfl, [], (List.append_nil _).symm, by simp⟩
  · have confined := programOf_confined p ho hact
    cases act with
    | bus op after => exact perform_bus_status confined (programOf_tracksStatus ho hact) s k ans
    | delay ms next => exact .inr ⟨rfl, [.delay .pxa ms], rfl, by simp [readBack]⟩
    | internal act =>
      obtain ⟨evs, trace⟩ := Writes.trace_internal confined (s.goto .pxa (k + 1))
      exact .inr ⟨Writes.lastStatus_internal confined _, _, trace, readBack_notMem_events evs⟩
    | retire final value => exact .inr (retire_ends confined s).keepsStatus
  · exact .inr (failExit_ends ..).keepsStatus
  · exact .inr (failExit_ends ..).keepsStatus

end Sys2Proof.Machine
end

section
/-! The step that takes a frame, and the obligations of the state family. -/

namespace Sys2Proof

/-- Decoding the frame of a well-formed command gives the command back (30_encoding.md rules R101, R102, R110). -/
theorem decode_encode {i : Instr} (h : i.WellFormed = true) : decode (encode i) = .ok i := by
  cases i with
  | cfgw => exact Laws.RoundTrip.cfgw _ _ h
  | cfgr => exact Laws.RoundTrip.cfgr _ h
  | start => exact Laws.RoundTrip.start _ _ h
  | stop => exact Laws.RoundTrip.stop _ h
  | adtrig => exact Laws.RoundTrip.adtrig _ h
  | adread => exact Laws.RoundTrip.adread h
  | admeas => exact Laws.RoundTrip.admeas _ h
  | pxtrig => exact Laws.RoundTrip.pxtrig _ h
  | pxrdy => exact Laws.RoundTrip.pxrdy _ h
  | pxread => exact Laws.RoundTrip.pxread _ h
  | pxmeas => exact Laws.RoundTrip.pxmeas _ h
  | pxled => exact Laws.RoundTrip.pxled _ h
  | ustrig => exact Laws.RoundTrip.ustrig h
  | usread => exact Laws.RoundTrip.usread h
  | usmeas => exact Laws.RoundTrip.usmeas h
  | crcv => exact Laws.RoundTrip.crcv _ _ _ _ h
  | setfreq => exact Laws.RoundTrip.setfreq _ h
  | setpwm => exact Laws.RoundTrip.setpwm _ _ _ h
  | fullon => exact Laws.RoundTrip.fullon _ h
  | fulloff => exact Laws.RoundTrip.fulloff _ h
  | setduty => exact Laws.RoundTrip.setduty _ _ h
  | sleep => exact Laws.RoundTrip.sleep h
  | wake => exact Laws.RoundTrip.wake h
  | restart => exact Laws.RoundTrip.restart h

/-- A word of 40 bits is the frame it was taken from (log entry 13). -/
theorem frameOfTable_toNat (f : Frame) : frameOfTable 40 f.toNat = f := by
  rw [frameOfTable, Nat.mod_eq_of_lt f.isLt, BitVec.ofNat_toNat, BitVec.setWidth_eq]

namespace Machine

theorem step_of_inputs_cons {s : State} {i : Input} {rest : List Input} (h : s.inputs = i :: rest) :
    step s = deliver i { s with inputs := rest } := by
  simp only [step, takeInput, h]

theorem step_of_inputs_nil {s : State} (h : s.inputs = []) :
    step s = deliver (Config.schedule s.turn) { s with turn := s.turn + 1 } := by
  simp only [step, takeInput, h]

theorem acceptFrame_of_decode {f : Frame} {i : Instr} (s : State) (h : decode f = .ok i) : acceptFrame f s = exec i s := by
  simp only [acceptFrame, h]

/-- A frame just presented is the next input taken, from the state without it. -/
theorem step_presentFrame (f : Frame) (s : State) : step (presentFrame f s) = acceptFrame f s := rfl

/-- Settles O7. -/
theorem stepTakesOldestInput : Obligations.StepTakesOldestInput :=
  ⟨fun _ _ _ => step_of_inputs_cons, fun _ => step_of_inputs_nil⟩

/-- Settles O6: a presented frame is taken next, and the frame of a well-formed command decodes to it. -/
theorem stepRunsDecodedCommand : Obligations.StepRunsDecodedCommand := by
  refine ⟨fun f i s h => ?_, fun i s h => ?_⟩
  · rw [step_presentFrame, acceptFrame_of_decode s h]
  · rw [State.withFetchWord, frameOfTable_toNat, step_presentFrame, acceptFrame_of_decode s (decode_encode h)]

/-- Settles O8, register family by register family. -/
theorem resetHoldsTheTable : Obligations.ResetHoldsTheTable where
  guard d := by cases d <;> rfl
  seq_idle d := by cases d <;> exact ⟨rfl, rfl⟩
  timerEn d := by cases d <;> rfl
  stopped d := by cases d <;> rfl
  interval d := by cases d <;> rfl
  res d := by cases d <;> rfl
  resValid d := by cases d <;> rfl
  lastStatus := rfl
  adcCurCh := rfl
  crcOk := rfl
  skipCount d := by cases d <;> rfl
  pwmErrcnt := rfl
  adcChmask := rfl
  pxaKinds := rfl
  pollMaxAmb := rfl
  pollMaxProx := rfl
  pollGapMs := rfl
  trace := rfl

/-- The guard and the sequencer of a busy slot are kept by a change that sets the guard and the sequencer of a free one. -/
theorem busy_kept_of_set {s : State} {d e : Slot} {b : Bool} {q : Seq} (hd : s.guard.get d = true)
    (he : s.guard.get e = false) :
    ((s.setGuard e b).setSeq e q).guard.get d = true ∧ ((s.setGuard e b).setSeq e q).seq.get d = s.seq.get d := by
  have hne : d ≠ e := by rintro rfl; rw [hd] at he; cases he
  simp [hne, hd]

theorem exec_keeps_busy {i : Instr} {s t : State} {d : Slot} (hd : s.guard.get d = true) (h : exec i s = .next t) :
    t.guard.get d = true ∧ t.seq.get d = s.seq.get d := by
  obtain ⟨u, hu, outcome⟩ := exec_answersOrStarts i s
  obtain rfl : u = t := Host.Outcome.next.inj (hu.symm.trans h)
  rcases outcome with ⟨guard, seq, -⟩ | ⟨e, q, -, hfree, -, -, rfl⟩
  · exact ⟨by rw [guard, hd], by rw [seq]⟩
  · exact busy_kept_of_set hd hfree.2

theorem acceptFrame_keeps_busy {f : Frame} {s t : State} {d : Slot} (hd : s.guard.get d = true)
    (h : acceptFrame f s = .next t) : t.guard.get d = true ∧ t.seq.get d = s.seq.get d := by
  unfold acceptFrame at h
  split at h
  · exact exec_keeps_busy hd h
  · cases h; exact ⟨hd, rfl⟩

theorem tickStep_keeps_busy (p : Params) (e : Sensor) {s : State} {d : Slot} (hd : s.guard.get d = true) :
    (tickStep p e s).guard.get d = true ∧ (tickStep p e s).seq.get d = s.seq.get d := by
  rcases tickStep_cases p e s with ⟨-, h⟩ | ⟨-, -, h⟩ | ⟨-, he, h⟩ <;> rw [h]
  · exact ⟨hd, rfl⟩
  · exact ⟨hd, rfl⟩
  · exact busy_kept_of_set hd he

/-- Settles O15, input by input. -/
theorem busySlotIsNotDisturbed : Obligations.BusySlotIsNotDisturbed := by
  intro d i s t hd not_reset not_own h
  cases i with
  | cmd f => exact acceptFrame_keeps_busy hd h
  | tick e => cases h; exact tickStep_keeps_busy Config.params e hd
  | micro e a =>
    have hne : d ≠ e := fun he => not_own a (he ▸ rfl)
    obtain ⟨guard, seq⟩ := microStep_other_slot hne h
    exact ⟨guard.trans hd, seq⟩
  | reset => exact absurd rfl not_reset

theorem AnsweredAtOnce.one_response {opcode : Byte} {s t : State} (h : AnsweredAtOnce opcode s t) :
    ∃ es r, t.trace = s.trace ++ es ∧ es.filter TraceEntry.isRsp = [.rsp r] ∧ r.opcode = opcode := by
  obtain ⟨evs, status, value, trace⟩ := h.trace
  exact ⟨_, ⟨opcode, status, value⟩, trace, by rw [List.filter_append, filter_isRsp_events]; rfl, rfl⟩

/-- The end of an operation is answered once, to the command that started it; the end of a tick's is not answered. -/
theorem Ends.responses {d : Slot} {s t : State} (h : Ends d s t) :
    ∃ es, t.trace = s.trace ++ es ∧
      if (s.seq.get d).origin = .cmd then
        ∃ r, es.filter TraceEntry.isRsp = [.rsp r] ∧ r.opcode = (s.seq.get d).opcode
      else es.filter TraceEntry.isRsp = [] := by
  obtain ⟨evs, status, value, trace⟩ := h.trace
  refine ⟨_, trace, ?_⟩
  rw [List.filter_append, filter_isRsp_events, List.nil_append, filter_isRsp_responseTo]
  unfold responseTo
  cases (s.seq.get d).origin with
  | cmd => exact ⟨_, rfl, rfl⟩
  | tick => rfl

/-- Settles O20: an acceptance answers at once or starts its slot, and a micro-step answers exactly where it ends its operation. -/
theorem oneResponsePerCommand : Obligations.OneResponsePerCommand := by
  refine ⟨fun i s => ?_, fun d a s t hg h => ?_⟩
  · obtain ⟨t, ht, answers | ⟨d, q, hd, free, opcode, origin, rfl⟩⟩ := exec_answersOrStarts i s
    · obtain ⟨es, r, trace, one, opcode⟩ := answers.one_response
      exact ⟨t, es, ht, trace, .inl ⟨r, one, opcode, answers.guard, answers.seq⟩⟩
    · exact ⟨_, [], ht, (List.append_nil _).symm, .inr ⟨rfl, d, q, hd, free.2, opcode, origin, rfl⟩⟩
  · rcases microStep_continues_or_ends hg h with goes_on | ends
    · have busy : t.guard.get d = true := by rw [goes_on.guard, hg]
      simpa [busy] using goes_on.trace
    · have idle : t.guard.get d = false := by rw [ends.guard, PerSlot.get_set_same]
      simpa only [idle, true_and] using ends.responses

/-- A command that uses no slot changes no sequencer and no guard. -/
theorem exec_immediate_frame {i : Instr} (hi : commandSlot i = none) (s : State) :
    ∃ t, exec i s = .next t ∧ t.seq = s.seq ∧ t.guard = s.guard := by
  obtain ⟨t, ht, answers | ⟨d, _, hd, -⟩⟩ := exec_answersOrStarts i s
  · exact ⟨t, ht, answers.seq, answers.guard⟩
  · rw [hi] at hd; cases hd

/-- Settles O21: the three commands use no slot, and a micro-step works with what its sequencer latched. -/
theorem runningOperationIsLatched : Obligations.RunningOperationIsLatched := by
  refine ⟨fun i hi s => ?_, fun d a s mask kinds amb prox gap timers intervals stopped => ?_⟩
  · rcases hi with ⟨reg, val, rfl⟩ | ⟨slot, interval, rfl⟩ | ⟨slot, rfl⟩ <;> exact exec_immediate_frame rfl s
  · have h := microStep_reconfigure Config.params d a s ⟨mask, kinds, amb, prox, gap, timers, intervals, stopped⟩
    refine h.trans ?_
    rw [deliver]
    cases microStep Config.params d a s <;> rfl

/-- Settles O43. -/
theorem lastStatusFollowsTheReads : Obligations.LastStatusFollowsTheReads := by
  intro a s t _ h
  rcases microStep_pxa_status h with reads | ⟨kept, es, trace, none_read⟩
  · exact .inl reads
  · exact .inr ⟨kept, by rwa [trace, List.drop_left]⟩

end Machine

end Sys2Proof
end

section
/-!
The memory family: the frame of a micro-step. What one slot's sequencer does reaches no register of another slot, no counter of
skipped ticks, not the checksum flag, and no setting.
-/

namespace Sys2Proof.Machine

/-! ### The registers outside a slot (20_memory.md rule R80) -/

/-- `t` has the registers of `s`, but for those of slot `d`: its result, and the one register that only this slot writes. -/
structure KeepsOtherRegisters (d : Slot) (s t : State) : Prop where
  result : ∀ e : Sensor, e.slot ≠ d → t.res.get e = s.res.get e ∧ t.resValid.get e = s.resValid.get e
  skipCount : t.skipCount = s.skipCount
  crcOk : t.crcOk = s.crcOk
  lastStatus : d ≠ .pxa → t.lastStatus = s.lastStatus
  adcCurCh : d ≠ .adc → t.adcCurCh = s.adcCurCh
  pwmErrcnt : d ≠ .pwm → t.pwmErrcnt = s.pwmErrcnt

namespace KeepsOtherRegisters

variable {d : Slot} {s t : State}

theorem refl (d : Slot) (s : State) : KeepsOtherRegisters d s s :=
  ⟨fun _ _ => ⟨rfl, rfl⟩, rfl, rfl, fun _ => rfl, fun _ => rfl, fun _ => rfl⟩

theorem setGuard (h : KeepsOtherRegisters d s t) (e : Slot) (b : Bool) : KeepsOtherRegisters d s (t.setGuard e b) := { h with }

theorem setSeq (h : KeepsOtherRegisters d s t) (e : Slot) (q : Seq) : KeepsOtherRegisters d s (t.setSeq e q) := { h with }

theorem logged (h : KeepsOtherRegisters d s t) (es : List TraceEntry) : KeepsOtherRegisters d s (t.logged es) := { h with }

theorem setRes (h : KeepsOtherRegisters d s t) {e : Sensor} (he : e.slot = d) (v : Word) (b : Bool) :
    KeepsOtherRegisters d s (t.setRes e v b) :=
  { h with
    result := fun e' he' => by
      have hne : e' ≠ e := by rintro rfl; exact he' he
      simpa [hne] using h.result e' he' }

/-- Rule R231: only slot 3 counts a failure. -/
theorem countPwmError (h : KeepsOtherRegisters d s t) (hd : d = .pwm) : KeepsOtherRegisters d s t.countPwmError :=
  { h with pwmErrcnt := fun hne => absurd hd hne }

theorem latchRead (h : KeepsOtherRegisters d s t) (op : BusOp) (rd : List Byte) :
    KeepsOtherRegisters d s (t.latchRead d op rd) := by
  cases op with
  | write => exact h
  | read | writeThenRead => exact h.setSeq d _

theorem release (h : KeepsOtherRegisters d s t) : KeepsOtherRegisters d s (t.release d) := (h.setGuard d false).setSeq d _

theorem answer (h : KeepsOtherRegisters d s t) (q : Seq) (status : Status) (value : Word) :
    KeepsOtherRegisters d s (t.answer q status value) := by
  rw [State.answer_eq_logged]
  exact h.logged _

theorem markAbsent (h : KeepsOtherRegisters d s t) (kind : ExcKind) : KeepsOtherRegisters d s (t.markAbsent d kind) := by
  cases kind with
  | timeout =>
    cases d with
    | adc | pxa | usr => exact h.setRes rfl _ _
    | pwm => exact h
  | busError | checksumError | rangeError => exact h

theorem reportException (h : KeepsOtherRegisters d s t) (kind : ExcKind) :
    KeepsOtherRegisters d s (t.reportException d kind) := by
  rcases t.reportException_cases d kind with ⟨hd, eq⟩ | ⟨-, -, eq⟩ | ⟨-, -, eq⟩ <;> rw [eq]
  · exact h.countPwmError hd
  · exact h.logged _
  · exact h

/-- The assignments of a program of slot `d` reach no other slot's register. -/
theorem writes {w : Place} {f : State → State} (h : KeepsOtherRegisters d s t) (hf : Writes d w f) :
    KeepsOtherRegisters d s (f t) := by
  induction hf with
  | none => exact h
  | seq g _ ih => exact ih.setSeq d _
  | adcCurCh _ hd _ _ ih => exact { ih with adcCurCh := fun hne => absurd hd hne }
  | lastStatus _ hd _ _ ih => exact { ih with lastStatus := fun hne => absurd hd hne }
  | result _ _ he v b _ ih => exact ih.setRes he v b
  | event _ v _ ih => exact ih.logged [.evt v]

end KeepsOtherRegisters

theorem perform_keepsOtherRegisters {d : Slot} {act : Action} (h : act.Confined d) (s : State) (k : Nat) (ans : BusAnswer) :
    KeepsOtherRegisters d s (s.perform d k ans act) := by
  have start := KeepsOtherRegisters.refl d s
  cases act with
  | bus op after =>
    cases ha : answerBytes op.asked ans with
    | some rd =>
      rw [State.perform_bus_ok after ha]
      exact (((start.logged [.bus d op (some rd)]).latchRead op rd).setSeq d _).writes (h rd)
    | none =>
      rw [State.perform_bus_fail after ha]
      exact (start.logged [.bus d op none]).setSeq d _
  | delay ms next => exact (start.logged [.delay d ms]).setSeq d _
  | internal act => exact (start.setSeq d _).writes h
  | retire final value =>
    obtain ⟨writes, -⟩ := h
    exact (start.writes writes).release.answer _ _ _

theorem failExit_keepsOtherRegisters (s : State) (d : Slot) (kind : ExcKind) (status : Status) (value : Word) :
    KeepsOtherRegisters d s (s.failExit d kind status value) :=
  ((((KeepsOtherRegisters.refl d s).markAbsent kind).reportException kind).release.setSeq d _).answer _ _ _

theorem microStep_keepsOtherRegisters {p : Params} {d : Slot} {s t : State} {ans : BusAnswer}
    (h : microStep p d ans s = .next t) : KeepsOtherRegisters d s t := by
  rcases microStep_cases h with ⟨-, rfl⟩ | ⟨-, ho, ⟨k, act, -, hact, rfl⟩ | ⟨-, -, rfl⟩ | ⟨-, -, rfl⟩⟩
  · exact .refl d t
  · exact perform_keepsOtherRegisters (programOf_confined p ho hact) s k ans
  · exact failExit_keepsOtherRegisters ..
  · exact failExit_keepsOtherRegisters ..

/-! ### The settings (47_poll.md rule R323) -/

/-- What `CFGW`, `START` and `STOP` have written. -/
def State.settings (s : State) : Settings :=
  ⟨s.adcChmask, s.pxaKinds, s.pollMaxAmb, s.pollMaxProx, s.pollGapMs, s.timerEn, s.interval, s.stopped⟩

theorem State.reconfigure_settings (s : State) : s.reconfigure s.settings = s := rfl

theorem State.settings_reconfigure (s : State) (c : Settings) : (s.reconfigure c).settings = c := rfl

/-- A micro-step commutes with writing the settings, so with writing those that stand there: it leaves them. -/
theorem microStep_settings {p : Params} {d : Slot} {s t : State} {ans : BusAnswer} (h : microStep p d ans s = .next t) :
    t.settings = s.settings := by
  have commutes := microStep_reconfigure p d ans s s.settings
  rw [State.reconfigure_settings, h] at commutes
  have ht : t = t.reconfigure s.settings := Host.Outcome.next.inj commutes
  exact (congrArg State.settings ht).trans (t.settings_reconfigure s.settings)

/-- Settles O16: the guards and sequencers, then the results, then the settings, then the single registers. -/
theorem microStepTouchesItsSlot : Obligations.MicroStepTouchesItsSlot := by
  intro d a s t h
  have settings := microStep_settings h
  obtain ⟨result, skipCount, crcOk, lastStatus, adcCurCh, pwmErrcnt⟩ := microStep_keepsOtherRegisters h
  exact ⟨fun e he => microStep_other_slot he h, result,
    congrArg Settings.timerEn settings, congrArg Settings.stopped settings, congrArg Settings.interval settings,
    skipCount, crcOk,
    congrArg Settings.adcChmask settings, congrArg Settings.pxaKinds settings, congrArg Settings.pollMaxAmb settings,
    congrArg Settings.pollMaxProx settings, congrArg Settings.pollGapMs settings,
    lastStatus, adcCurCh, pwmErrcnt⟩

end Sys2Proof.Machine
end

section
/-!
The encoding family. A frame splits into its opcode byte and its operand word; each row of the opcode map keeps in `encode` what
it took in `read`, so a frame that matches a row is the frame of what the row reads.
-/

namespace Sys2Proof

/-! ### The operand word of a frame (30_encoding.md rules R100, R101) -/

/-- `w[31:0]`, the frame without its opcode byte (rule R100). -/
def operandsOf (f : Frame) : BitVec 32 := f.extractLsb' 0 32

theorem opcodeOf_append_operandsOf (f : Frame) : opcodeOf f ++ operandsOf f = f :=
  BitVec.extractLsb'_append_extractLsb' (w := 8) (len := 32)

/-- A pattern sets no operand bit: every operand bit under its mask must be zero (rule R110). -/
theorem opcodeTable_pat_operands_zero : ∀ r ∈ opcodeTable, operandsOf r.pat = 0#32 := by decide

theorem OpcodeRow.matches_iff (r : OpcodeRow) (f : Frame) : r.matches f = true ↔ f &&& r.mask = r.pat := beq_iff_eq

/-- A frame that matches a row has no operand bit set outside the fields of the row. -/
theorem operandsOf_and_fields {r : OpcodeRow} (hr : r ∈ opcodeTable) {f : Frame} (h : r.matches f = true) :
    operandsOf f &&& ~~~operandsOf r.mask = operandsOf f := by
  have outside : operandsOf f &&& operandsOf r.mask = 0#32 := by
    rw [← opcodeTable_pat_operands_zero r hr, ← (r.matches_iff f).mp h]
    exact BitVec.extractLsb'_and.symm
  calc operandsOf f &&& ~~~operandsOf r.mask
      = (operandsOf f &&& operandsOf r.mask) ||| (operandsOf f &&& ~~~operandsOf r.mask) := by
        rw [outside, BitVec.zero_or]
    _ = operandsOf f := by
        ext i
        simp [← Bool.and_or_distrib_left]

/-! ### The formats (rule R101): the fields of a format, put back in their places, are the operand word under the fields' mask -/

@[simp] theorem bit_kindOfBit (b : Bool) : (kindOfBit b).bit = BitVec.ofBool b := by cases b <;> rfl

theorem formatR_operands (f : Frame) : 0#8 ++ regOf f ++ lowHalfOf f = operandsOf f &&& 0x00FFFFFF#32 := by
  ext i
  simp only [regOf, lowHalfOf, operandsOf, BitVec.getElem_append, BitVec.getElem_and, BitVec.getElem_extractLsb']
  interval_cases i <;> simp

theorem formatR_register_operands (f : Frame) : 0#8 ++ regOf f ++ 0#16 = operandsOf f &&& 0x00FF0000#32 := by
  ext i
  simp only [regOf, operandsOf, BitVec.getElem_append, BitVec.getElem_and, BitVec.getElem_extractLsb']
  interval_cases i <;> simp

theorem formatS_operands (f : Frame) :
    0#14 ++ (slotOf f).bits ++ BitVec.ofNat 16 (lowHalfOf f).toNat = operandsOf f &&& 0x0003FFFF#32 := by
  ext i
  simp only [slotOf, bits_slotOfBits, lowHalfOf, BitVec.ofNat_toNat, BitVec.setWidth_eq, operandsOf,
    BitVec.getElem_append, BitVec.getElem_and, BitVec.getElem_extractLsb']
  interval_cases i <;> simp

theorem formatS_slot_operands (f : Frame) : 0#14 ++ (slotOf f).bits ++ 0#16 = operandsOf f &&& 0x00030000#32 := by
  ext i
  simp only [slotOf, bits_slotOfBits, operandsOf, BitVec.getElem_append, BitVec.getElem_and, BitVec.getElem_extractLsb']
  interval_cases i <;> simp

theorem formatB_operands (f : Frame) :
    0#24 ++ BitVec.ofNat 8 (lowByteOf f).toNat = operandsOf f &&& 0x000000FF#32 := by
  ext i
  simp only [lowByteOf, BitVec.ofNat_toNat, BitVec.setWidth_eq, operandsOf, BitVec.getElem_append, BitVec.getElem_and,
    BitVec.getElem_extractLsb']
  interval_cases i <;> simp

theorem formatK_operands (f : Frame) : 0#31 ++ (kindOf f).bit = operandsOf f &&& 0x00000001#32 := by
  ext i
  simp only [kindOf, bit_kindOfBit, operandsOf, BitVec.getElem_append, BitVec.getElem_and, BitVec.getElem_extractLsb']
  interval_cases i <;> simp

theorem formatH_operands (f : Frame) :
    0#16 ++ BitVec.ofNat 16 (lowHalfOf f).toNat = operandsOf f &&& 0x0000FFFF#32 := by
  ext i
  simp only [lowHalfOf, BitVec.ofNat_toNat, BitVec.setWidth_eq, operandsOf, BitVec.getElem_append, BitVec.getElem_and,
    BitVec.getElem_extractLsb']
  interval_cases i <;> simp

theorem formatV_operands (f : Frame) :
    0#6 ++ BitVec.ofBool (f.getLsbD 25) ++ BitVec.ofBool (f.getLsbD 24) ++ dataOf f ++ lowByteOf f =
      operandsOf f &&& 0x03FFFFFF#32 := by
  ext i
  simp only [dataOf, lowByteOf, operandsOf, BitVec.getElem_append, BitVec.getElem_and, BitVec.getElem_extractLsb']
  interval_cases i <;> simp

theorem formatT_operands (f : Frame) :
    BitVec.ofNat 4 (channelOf f) ++ 0#2 ++ BitVec.ofNat 13 (onOf f) ++ BitVec.ofNat 13 (offOf f) =
      operandsOf f &&& 0xF3FFFFFF#32 := by
  ext i
  simp only [channelOf, onOf, offOf, BitVec.ofNat_toNat, BitVec.setWidth_eq, operandsOf, BitVec.getElem_append,
    BitVec.getElem_and, BitVec.getElem_extractLsb']
  interval_cases i <;> simp

theorem formatC_operands (f : Frame) : BitVec.ofNat 4 (channelOf f) ++ 0#28 = operandsOf f &&& 0xF0000000#32 := by
  ext i
  simp only [channelOf, BitVec.ofNat_toNat, BitVec.setWidth_eq, operandsOf, BitVec.getElem_append, BitVec.getElem_and,
    BitVec.getElem_extractLsb']
  interval_cases i <;> simp

theorem formatP_operands (f : Frame) :
    BitVec.ofNat 4 (channelOf f) ++ 0#12 ++ BitVec.ofInt 16 (lowHalfOf f).toInt =
      operandsOf f &&& 0xF000FFFF#32 := by
  ext i
  simp only [channelOf, lowHalfOf, BitVec.ofNat_toNat, BitVec.ofInt_toInt, BitVec.setWidth_eq, operandsOf,
    BitVec.getElem_append, BitVec.getElem_and, BitVec.getElem_extractLsb']
  interval_cases i <;> simp

/-- No field: the word is zero (rule R101, format N). -/
theorem formatN_operands (f : Frame) : 0#32 = operandsOf f &&& 0x00000000#32 := (BitVec.and_zero).symm

/-! ### What a field holds fits the field (rule R102) -/

theorem fitsUnsigned_toNat {n : Nat} (v : BitVec n) : fitsUnsigned n v.toNat = true := decide_eq_true v.isLt

theorem fitsPercent_toInt (v : Half) : fitsPercent v.toInt = true := by
  have lower := v.le_toInt
  have upper := v.toInt_lt
  simp only [fitsPercent, Bool.and_eq_true, decide_eq_true_eq]
  omega

/-! ### What the rows read (rule R110) -/

/-- What the row reads from `f` has the row's opcode, the operand bits of `f` in the row's fields, and operands that fit. -/
structure OpcodeRow.Keeps (r : OpcodeRow) (f : Frame) : Prop where
  opcode : (r.read f).opcode = opcodeOf r.pat
  operands : (r.read f).operandWord = operandsOf f &&& ~~~operandsOf r.mask
  wellFormed : (r.read f).WellFormed = true

theorem pollRows_keep (f : Frame) : ∀ r ∈ pollRows, r.Keeps f := by
  simp only [pollRows, List.forall_mem_cons]
  exact ⟨⟨rfl, formatR_operands f, rfl⟩, ⟨rfl, formatR_register_operands f, rfl⟩,
    ⟨rfl, formatS_operands f, fitsUnsigned_toNat _⟩, ⟨rfl, formatS_slot_operands f, rfl⟩, nofun⟩

theorem adcRows_keep (f : Frame) : ∀ r ∈ adcRows, r.Keeps f := by
  simp only [adcRows, List.forall_mem_cons]
  exact ⟨⟨rfl, formatB_operands f, fitsUnsigned_toNat _⟩, ⟨rfl, formatN_operands f, rfl⟩,
    ⟨rfl, formatB_operands f, fitsUnsigned_toNat _⟩, nofun⟩

theorem pxaRows_keep (f : Frame) : ∀ r ∈ pxaRows, r.Keeps f := by
  simp only [pxaRows, List.forall_mem_cons]
  exact ⟨⟨rfl, formatK_operands f, rfl⟩, ⟨rfl, formatK_operands f, rfl⟩, ⟨rfl, formatK_operands f, rfl⟩,
    ⟨rfl, formatK_operands f, rfl⟩, ⟨rfl, formatH_operands f, fitsUnsigned_toNat _⟩, nofun⟩

theorem usrRows_keep (f : Frame) : ∀ r ∈ usrRows, r.Keeps f := by
  simp only [usrRows, List.forall_mem_cons]
  exact ⟨⟨rfl, formatN_operands f, rfl⟩, ⟨rfl, formatN_operands f, rfl⟩, ⟨rfl, formatN_operands f, rfl⟩, nofun⟩

theorem crcRows_keep (f : Frame) : ∀ r ∈ crcRows, r.Keeps f := by
  simp only [crcRows, List.forall_mem_cons]
  exact ⟨⟨rfl, formatV_operands f, rfl⟩, nofun⟩

theorem pwmRows_keep (f : Frame) : ∀ r ∈ pwmRows, r.Keeps f := by
  have channel : fitsUnsigned 4 (channelOf f) = true := fitsUnsigned_toNat _
  have ticks : (fitsUnsigned 4 (channelOf f) && fitsUnsigned 13 (onOf f) && fitsUnsigned 13 (offOf f)) = true := by
    rw [channel, onOf, offOf, fitsUnsigned_toNat, fitsUnsigned_toNat]; rfl
  have percent : (fitsUnsigned 4 (channelOf f) && fitsPercent (lowHalfOf f).toInt) = true := by
    rw [channel, fitsPercent_toInt]; rfl
  simp only [pwmRows, List.forall_mem_cons]
  exact ⟨⟨rfl, formatH_operands f, fitsUnsigned_toNat _⟩, ⟨rfl, formatT_operands f, ticks⟩,
    ⟨rfl, formatC_operands f, channel⟩, ⟨rfl, formatC_operands f, channel⟩, ⟨rfl, formatP_operands f, percent⟩,
    ⟨rfl, formatN_operands f, rfl⟩, ⟨rfl, formatN_operands f, rfl⟩, ⟨rfl, formatN_operands f, rfl⟩, nofun⟩

theorem opcodeTable_keeps (f : Frame) {r : OpcodeRow} (hr : r ∈ opcodeTable) : r.Keeps f := by
  simp only [opcodeTable, List.mem_append] at hr
  rcases hr with ((((hr | hr) | hr) | hr) | hr) | hr
  · exact pollRows_keep f r hr
  · exact adcRows_keep f r hr
  · exact pxaRows_keep f r hr
  · exact usrRows_keep f r hr
  · exact crcRows_keep f r hr
  · exact pwmRows_keep f r hr

/-- A frame that matches a row is the frame of what the row reads from it. -/
theorem encode_read_of_matches {r : OpcodeRow} (hr : r ∈ opcodeTable) {f : Frame} (h : r.matches f = true) :
    encode (r.read f) = f := by
  have keeps := opcodeTable_keeps f hr
  calc encode (r.read f)
      = opcodeOf r.pat ++ (operandsOf f &&& ~~~operandsOf r.mask) := by rw [encode, keeps.opcode, keeps.operands]
    _ = opcodeOf f ++ operandsOf f := by rw [opcodeOf_of_matches hr h, operandsOf_and_fields hr h]
    _ = f := opcodeOf_append_operandsOf f

/-! ### The rows are disjoint, and the frames of no row (rules R110, R111) -/

/-- Two rows of the map that match one frame are one row. -/
theorem row_eq_of_matches {r r' : OpcodeRow} (hr : r ∈ opcodeTable) (hr' : r' ∈ opcodeTable) {f : Frame}
    (h : r.matches f = true) (h' : r'.matches f = true) : r = r' := by
  have distinct : (opcodeTable.map fun r => opcodeOf r.pat).Nodup := List.pairwise_map.mpr opcodeTable_opcodes_distinct
  exact List.inj_on_of_nodup_map distinct hr hr' ((opcodeOf_of_matches hr h).symm.trans (opcodeOf_of_matches hr' h'))

theorem decode_eq_ok_iff (f : Frame) (i : Instr) :
    decode f = .ok i ↔ ∃ r ∈ opcodeTable, f &&& r.mask = r.pat ∧ r.read f = i := by
  constructor
  · intro h
    obtain ⟨r, hr, hm, rfl⟩ := decode_ok_row h
    exact ⟨r, hr, (r.matches_iff f).mp hm, rfl⟩
  · rintro ⟨r, hr, hm, rfl⟩
    exact decode_of_matches hr ((r.matches_iff f).mpr hm)

/-- The ranges of byte 0 that rule R111 lists as no command's. -/
def UnlistedOpcode (op : Nat) : Prop :=
  op = 0x00 ∨ (0x05 ≤ op ∧ op ≤ 0x0F) ∨ (0x13 ≤ op ∧ op ≤ 0x1F) ∨ (0x25 ≤ op ∧ op ≤ 0x2F) ∨
    (0x33 ≤ op ∧ op ≤ 0x3F) ∨ (0x41 ≤ op ∧ op ≤ 0x4F) ∨ 0x58 ≤ op

theorem opcodeTable_not_unlisted : ∀ r ∈ opcodeTable, ¬ UnlistedOpcode (opcodeOf r.pat).toNat := by
  unfold UnlistedOpcode
  decide

theorem toNat_opcodeOf (f : Frame) : (opcodeOf f).toNat = (f >>> 32).toNat := by
  have := f.isLt
  simp only [opcodeOf, BitVec.extractLsb'_toNat, BitVec.toNat_ushiftRight, Nat.shiftRight_eq_div_pow]
  omega

theorem not_matches_of_unlistedOpcode {f : Frame} (h : UnlistedOpcode (f >>> 32).toNat) :
    ∀ r ∈ opcodeTable, f &&& r.mask ≠ r.pat := by
  intro r hr hm
  rw [← toNat_opcodeOf, opcodeOf_of_matches hr ((r.matches_iff f).mpr hm)] at h
  exact opcodeTable_not_unlisted r hr h

theorem acceptFrame_of_no_match {f : Frame} (s : Machine.State) (h : ∀ r ∈ opcodeTable, f &&& r.mask ≠ r.pat) :
    Machine.acceptFrame f s = .next (s.respond (opcodeOf f) .illegal 0#32) := by
  have unmatched : ∀ r ∈ opcodeTable, r.matches f = false := fun r hr =>
    Bool.eq_false_iff.mpr fun hm => h r hr ((r.matches_iff f).mp hm)
  obtain ⟨e, he⟩ := decode_error_of_no_match unmatched
  simp only [Machine.acceptFrame, he]

/-! ### The obligations on the codec -/

theorem decodeBytes_encode {i : Instr} (h : i.WellFormed = true) : decodeBytes (frameBytes (encode i)) = .ok i :=
  (decodeBytes_frameBytes (encode i)).trans (decode_encode h)

theorem decodeBytes_of_frameBytes_eq {i : Instr} {bytes : List Byte} (h : frameBytes (encode i) = bytes)
    (wellFormed : i.WellFormed = true) : decodeBytes bytes = .ok i := h ▸ decodeBytes_encode wellFormed

/-- Settles O1, from the frame and from its five bytes. -/
theorem decodeOfEncode : Obligations.DecodeOfEncode := fun _ h => ⟨decode_encode h, decodeBytes_encode h⟩

/-- Settles O2: a frame that decodes matches a row, and the row keeps every bit of it. -/
theorem encodeOfDecode : Obligations.EncodeOfDecode := by
  intro f i h
  obtain ⟨r, hr, hm, rfl⟩ := decode_ok_row h
  exact ⟨encode_read_of_matches hr hm, (opcodeTable_keeps f hr).wellFormed⟩

/-- Settles O3: the table as written, decoding as a row's match, and rows told apart by their opcodes. -/
theorem opcodeMap : Obligations.OpcodeMap := by
  refine ⟨rfl, decode_eq_ok_iff, fun f r r' hr hr' h h' => ?_⟩
  exact congrArg OpcodeRow.mnemonic (row_eq_of_matches hr hr' ((r.matches_iff f).mpr h) ((r'.matches_iff f).mpr h'))

/-- Settles O5: the step takes the presented frame, which is no command; no row has an opcode of the unlisted ranges. -/
theorem illegalFrameAnswered : Obligations.IllegalFrameAnswered := by
  refine ⟨fun f s h => ?_, fun f h => not_matches_of_unlistedOpcode h⟩
  rw [Machine.step_presentFrame]
  exact acceptFrame_of_no_match s h

/-- Settles O4: each word is the five bytes of the command's frame, so the round trip gives the command back. -/
theorem specWordsDecode : Obligations.SpecWordsDecode := by
  refine ⟨?_, ?_, ?_, ?_, ?_, ?_, ?_, ?_⟩ <;> exact decodeBytes_of_frameBytes_eq (by decide) rfl

namespace Machine

theorem toNat_hi8_ofNat {v : Nat} (h : v ≤ 4096) : (hi8 (BitVec.ofNat 16 v)).toNat = v / 256 := by
  rw [toNat_hi8, BitVec.toNat_ofNat]
  omega

/-- Bit 4 of the high byte is the bit of weight 4096 (30_encoding.md rule R121). -/
theorem hi8_sentinel_bit {v : Nat} (h : v ≤ 4096) : (hi8 (BitVec.ofNat 16 v)).getLsbD 4 = true ↔ v = 4096 := by
  rw [← BitVec.testBit_toNat, toNat_hi8_ofNat h, Nat.testBit_eq_decide_div_mod_eq, decide_eq_true_iff]
  omega

/-- Settles O59: the bytes as numbers, then the sentinel's bit, then its two bytes. -/
theorem tickBytes : Obligations.TickBytes := by
  intro v hv
  refine ⟨?_, toNat_hi8_ofNat hv, hi8_sentinel_bit hv, ?_⟩
  · rw [toNat_lo8, BitVec.toNat_ofNat]
    omega
  · rintro rfl
    exact ⟨lo8_ofNat 4096, hi8_ofNat 4096 (by decide)⟩

end Machine

end Sys2Proof
end

section
/-!
The bus (30_encoding.md rule R120): with the operands that the invariant gives a running operation, every transaction of every
program is a row of the wire table; nothing but a bus action of a micro-step appends one.
-/

namespace Sys2Proof.Machine

/-! ### The wire frames are rows of the table -/

section Rows

variable (p : Params)

theorem frameAdcTrigger_wireRow {ch : Nat} (h : ch < p.adcNchan) : WireRow p .adc (frameAdcTrigger p (cfgWord p ch)) :=
  .inl ⟨ch, h, rfl⟩

theorem frameAdcResult_wireRow : WireRow p .adc frameAdcResult := .inr rfl

theorem framePxaStatus_wireRow : WireRow p .pxa framePxaStatus := .inl rfl

theorem framePxaTrigger_wireRow (tmp : Byte) (k : Kind) : WireRow p .pxa (framePxaTrigger tmp k) := by
  refine .inr (.inl ⟨tmp, ?_⟩)
  cases k
  · exact .inl rfl
  · exact .inr rfl

theorem framePxaLed_wireRow {units : Half} (h : units.toNat ≤ 20) : WireRow p .pxa (framePxaLed units) :=
  .inr (.inr (.inl ⟨units.toNat, h, rfl⟩))

theorem framePxaResult_wireRow (k : Kind) : WireRow p .pxa (framePxaResult k) := by
  refine .inr (.inr (.inr ?_))
  cases k
  · exact .inl rfl
  · exact .inr rfl

theorem frameUsrTrigger_wireRow : WireRow p .usr frameUsrTrigger := .inl rfl

theorem frameUsrResult_wireRow : WireRow p .usr frameUsrResult := .inr rfl

theorem framePwmMode_wireRow : WireRow p .pwm framePwmMode := .inl rfl

/-- The byte function is one of the three of 45_pwm.md rule R259, with the block's masks. -/
def IsModeByte (p : Params) (byte : Byte → Byte) : Prop :=
  byte = sleepByte p.mode1Sleep p.mode1Restart ∨ byte = wakeByte p.mode1Sleep p.mode1Restart ∨
    byte = restartByte p.mode1Sleep p.mode1Restart

theorem framePwmModeWrite_wireRow {byte : Byte → Byte} (h : IsModeByte p byte) (tmp : Byte) :
    WireRow p .pwm (framePwmModeWrite (byte tmp)) := by
  refine .inr (.inl ⟨tmp, ?_⟩)
  rcases h with rfl | rfl | rfl
  · exact .inl rfl
  · exact .inr (.inl rfl)
  · exact .inr (.inr rfl)

theorem framePwmPrescale_wireRow {hz : Nat} (h : hzLegal hz = true) :
    WireRow p .pwm (framePwmPrescale (BitVec.ofNat 8 (prescale hz))) := by
  obtain ⟨lower, upper⟩ := (hzLegal_iff hz).mp h
  exact .inr (.inr (.inl ⟨hz, lower, upper, rfl⟩))

theorem lo8_eq_ofNat (v : Half) : lo8 v = BitVec.ofNat 8 v.toNat := rfl

theorem hi8_eq_ofNat (v : Half) : hi8 v = BitVec.ofNat 8 (v.toNat / 256) := by
  rw [← toNat_hi8, BitVec.ofNat_toNat, BitVec.setWidth_eq]

/-- The four writes of a channel, with legal operands (45_pwm.md rules R240, R241). -/
theorem tickFrames_wireRow {base : Byte} {on off : Half} (h : TickArgsOk base on off) :
    WireRow p .pwm (frameOnLow base on) ∧ WireRow p .pwm (frameOnHigh base on) ∧
      WireRow p .pwm (frameOffLow base off) ∧ WireRow p .pwm (frameOffHigh base off) := by
  obtain ⟨⟨ch, hch, rfl⟩, hon, hoff⟩ := h
  have register (j : Nat) := channelBase_add ch j
  refine ⟨.inr (.inr (.inr ⟨ch, on.toNat, hch, hon, .inl rfl⟩)),
    .inr (.inr (.inr ⟨ch, on.toNat, hch, hon, .inr (.inl ?_)⟩)),
    .inr (.inr (.inr ⟨ch, off.toNat, hch, hoff, .inr (.inr (.inl ?_))⟩)),
    .inr (.inr (.inr ⟨ch, off.toNat, hch, hoff, .inr (.inr (.inr ?_))⟩))⟩
  · rw [frameOnHigh, regWrite, register 1, hi8_eq_ofNat]
  · rw [frameOffLow, regWrite, register 2, lo8_eq_ofNat]
  · rw [frameOffHigh, regWrite, register 3, hi8_eq_ofNat]

end Rows

/-! ### The programs issue rows only -/

/-- The transaction of a bus action is a row of the table for slot `d`. -/
def Action.OnWire (p : Params) (d : Slot) : Action → Prop
  | .bus op _ => WireRow p d op
  | _ => True

section Programs

variable {p : Params} {q : Seq} {k : Nat} {act : Action}

theorem adtrigProgram_onWire {cfg : Half} (args : AdcArgsOk p cfg q) (h : adtrigProgram p cfg q k = some act) :
    act.OnWire p .adc := by
  obtain ⟨hch, rfl⟩ := args
  unfold adtrigProgram at h
  split at h <;> cases h
  · exact frameAdcTrigger_wireRow p hch
  · exact trivial

theorem adreadProgram_onWire (h : adreadProgram q k = some act) : act.OnWire p .adc := by
  unfold adreadProgram at h
  split at h <;> cases h
  · exact frameAdcResult_wireRow p
  · exact trivial

theorem admeasProgram_onWire {cfg delayMs : Half} {address : BitVec 7} (args : AdcArgsOk p cfg q)
    (h : admeasProgram p cfg delayMs address q k = some act) : act.OnWire p .adc := by
  obtain ⟨hch, rfl⟩ := args
  unfold admeasProgram at h
  split at h <;> cases h
  case h_1 => exact frameAdcTrigger_wireRow p hch
  case h_3 => exact frameAdcResult_wireRow p
  case h_2 | h_4 | h_5 => exact trivial

/-- The cycle's channel is a supported one where its trigger uses it, which is at step 2. -/
theorem adcCycleProgram_onWire {mask : Byte} {delayMs : Half} {address : BitVec 7} (hch : k = 2 → q.ch.toNat < p.adcNchan)
    (h : adcCycleProgram p mask delayMs address q k = some act) : act.OnWire p .adc := by
  unfold adcCycleProgram at h
  split at h <;> cases h
  case h_2 => exact frameAdcTrigger_wireRow p (hch rfl)
  case h_4 => exact frameAdcResult_wireRow p
  case h_1 | h_3 | h_5 | h_6 => exact trivial

theorem pxtrigProgram_onWire (h : pxtrigProgram q k = some act) : act.OnWire p .pxa := by
  unfold pxtrigProgram at h
  split at h <;> cases h
  · exact framePxaStatus_wireRow p
  · exact framePxaTrigger_wireRow p _ _
  · exact trivial

theorem pxrdyProgram_onWire (h : pxrdyProgram q k = some act) : act.OnWire p .pxa := by
  unfold pxrdyProgram at h
  split at h <;> cases h
  · exact framePxaStatus_wireRow p
  · exact trivial

theorem pxreadProgram_onWire (h : pxreadProgram q k = some act) : act.OnWire p .pxa := by
  unfold pxreadProgram at h
  split at h <;> cases h
  · exact framePxaResult_wireRow p _
  · exact trivial

theorem pxmeasProgram_onWire {gapMs : Half} (h : pxmeasProgram p gapMs q k = some act) : act.OnWire p .pxa := by
  unfold pxmeasProgram at h
  split at h <;> cases h
  case h_1 | h_4 => exact framePxaStatus_wireRow p
  case h_2 => exact framePxaTrigger_wireRow p _ _
  case h_6 => exact framePxaResult_wireRow p _
  case h_3 | h_5 | h_7 | h_8 => exact trivial

theorem pxaCycleProgram_onWire {kinds : BitVec 2} {pmAmb pmProx gapMs : Half}
    (h : pxaCycleProgram p kinds pmAmb pmProx gapMs q k = some act) : act.OnWire p .pxa := by
  unfold pxaCycleProgram at h
  split at h <;> cases h
  case h_2 | h_5 => exact framePxaStatus_wireRow p
  case h_3 => exact framePxaTrigger_wireRow p _ _
  case h_7 => exact framePxaResult_wireRow p _
  case h_1 | h_4 | h_6 | h_8 | h_9 => exact trivial

theorem pxledProgram_onWire {units : Half} (args : units.toNat ≤ 20) (h : pxledProgram units k = some act) :
    act.OnWire p .pxa := by
  unfold pxledProgram at h
  split at h <;> cases h
  · exact framePxaLed_wireRow p args
  · exact trivial

theorem ustrigProgram_onWire (h : ustrigProgram k = some act) : act.OnWire p .usr := by
  unfold ustrigProgram at h
  split at h <;> cases h
  · exact frameUsrTrigger_wireRow p
  · exact trivial

theorem usreadProgram_onWire (h : usreadProgram q k = some act) : act.OnWire p .usr := by
  unfold usreadProgram at h
  split at h <;> cases h
  · exact frameUsrResult_wireRow p
  · exact trivial

theorem usmeasProgram_onWire (h : usmeasProgram q k = some act) : act.OnWire p .usr := by
  unfold usmeasProgram at h
  split at h <;> cases h
  case h_1 => exact frameUsrTrigger_wireRow p
  case h_3 => exact frameUsrResult_wireRow p
  case h_2 | h_4 | h_5 => exact trivial

theorem usrCycleProgram_onWire (h : usrCycleProgram q k = some act) : act.OnWire p .usr := by
  unfold usrCycleProgram at h
  split at h <;> cases h
  case h_1 => exact frameUsrTrigger_wireRow p
  case h_3 => exact frameUsrResult_wireRow p
  case h_2 | h_4 | h_5 => exact trivial

theorem setfreqProgram_onWire {v slp rst : Byte} (legal : ∃ hz, hzLegal hz = true ∧ v = BitVec.ofNat 8 (prescale hz))
    (masks : MaskArgsOk p slp rst) (h : setfreqProgram v slp rst q k = some act) : act.OnWire p .pwm := by
  obtain ⟨hz, legal, rfl⟩ := legal
  obtain ⟨rfl, rfl⟩ := masks
  unfold setfreqProgram at h
  split at h <;> cases h
  case h_1 | h_5 | h_8 => exact framePwmMode_wireRow p
  case h_2 => exact framePwmModeWrite_wireRow p (.inl rfl) q.tmp
  case h_4 => exact framePwmPrescale_wireRow p legal
  case h_6 => exact framePwmModeWrite_wireRow p (.inr (.inl rfl)) q.tmp
  case h_9 => exact framePwmModeWrite_wireRow p (.inr (.inr rfl)) q.tmp
  case h_3 | h_7 | h_10 | h_11 => exact trivial

theorem tickProgram_onWire {base : Byte} {on off : Half} {value : Word} (args : TickArgsOk base on off)
    (h : tickProgram base on off value k = some act) : act.OnWire p .pwm := by
  obtain ⟨onLow, onHigh, offLow, offHigh⟩ := tickFrames_wireRow p args
  unfold tickProgram at h
  split at h <;> cases h
  · exact onLow
  · exact onHigh
  · exact offLow
  · exact offHigh
  · exact trivial

theorem modeProgram_onWire {byte : Byte → Byte} (hb : IsModeByte p byte) (h : modeProgram byte q k = some act) :
    act.OnWire p .pwm := by
  unfold modeProgram at h
  split at h <;> cases h
  · exact framePwmMode_wireRow p
  · exact framePwmModeWrite_wireRow p hb q.tmp
  · exact trivial
  · exact trivial

/-- The action at the position of a legal sequencer issues a row of the table, if it issues a transaction. -/
theorem programOf_onWire {d : Slot} (ok : SeqOk p d q) (at_k : q.step = .at k) (h : programOf p q k = some act) :
    act.OnWire p d := by
  obtain ⟨own_slot, -, args⟩ := ok
  unfold programOf at h
  unfold ArgsOk at args
  cases hq : q.op <;> rw [hq] at own_slot args h <;> cases own_slot
  case adtrig => exact adtrigProgram_onWire args h
  case adread => exact adreadProgram_onWire h
  case admeas => exact admeasProgram_onWire args.1 h
  case adcCycle =>
    obtain ⟨-, -, -, supported⟩ := args
    refine adcCycleProgram_onWire (fun hk => supported ?_ ?_) h <;> simp [at_k, hk]
  case pxtrig => exact pxtrigProgram_onWire h
  case pxrdy => exact pxrdyProgram_onWire h
  case pxread => exact pxreadProgram_onWire h
  case pxmeas => exact pxmeasProgram_onWire h
  case pxaCycle => exact pxaCycleProgram_onWire h
  case pxled => exact pxledProgram_onWire args h
  case ustrig => exact ustrigProgram_onWire h
  case usread => exact usreadProgram_onWire h
  case usmeas => exact usmeasProgram_onWire h
  case usrCycle => exact usrCycleProgram_onWire h
  case setfreq => exact setfreqProgram_onWire args.1 args.2 h
  case setpwm | fullon | fulloff | setduty => exact tickProgram_onWire args h
  case sleep =>
    obtain ⟨rfl, rfl⟩ := args
    exact modeProgram_onWire (.inl rfl) h
  case wake =>
    obtain ⟨rfl, rfl⟩ := args
    exact modeProgram_onWire (.inr (.inl rfl)) h
  case restart =>
    obtain ⟨rfl, rfl⟩ := args
    exact modeProgram_onWire (.inr (.inr rfl)) h

end Programs

/-! ### What an input appends to the trace -/

/-- `t` is `s` after a step that issues no transaction. -/
def Silent (s t : State) : Prop := ∃ es, t.trace = s.trace ++ es ∧ ∀ d op a, .bus d op a ∉ es

/-- `t` is `s` after a micro-step of slot `d` that issues one transaction, a row of the table, and appends nothing else. -/
def Transacts (p : Params) (d : Slot) (s t : State) : Prop :=
  ∃ op a, WireRow p d op ∧ t.trace = s.trace ++ [.bus d op a]

theorem Silent.of_trace_eq {s t : State} (h : t.trace = s.trace) : Silent s t :=
  ⟨[], by rw [h, List.append_nil], fun _ _ _ => List.not_mem_nil⟩

theorem Silent.of_events {s t : State} {evs : List Event} (h : t.trace = s.trace ++ evs.map .evt) : Silent s t :=
  ⟨_, h, by simp⟩

theorem AnsweredAtOnce.silent {opcode : Byte} {s t : State} (h : AnsweredAtOnce opcode s t) : Silent s t := by
  obtain ⟨evs, status, value, trace⟩ := h.trace
  exact ⟨_, trace, by simp [answered]⟩

theorem bus_notMem_responseTo (q : Seq) (status : Status) (value : Word) (d : Slot) (op : BusOp) (a : Option (List Byte)) :
    .bus d op a ∉ responseTo q status value := by
  unfold responseTo
  cases q.origin <;> simp [answered]

theorem Ends.silent {d : Slot} {s t : State} (h : Ends d s t) : Silent s t := by
  obtain ⟨evs, status, value, trace⟩ := h.trace
  exact ⟨_, trace, by simp [bus_notMem_responseTo]⟩

theorem exec_silent {i : Instr} {s t : State} (h : exec i s = .next t) : Silent s t := by
  obtain ⟨u, hu, outcome⟩ := exec_answersOrStarts i s
  obtain rfl : u = t := Host.Outcome.next.inj (hu.symm.trans h)
  rcases outcome with answers | ⟨d, q, -, -, -, -, rfl⟩
  · exact answers.silent
  · exact .of_trace_eq rfl

theorem acceptFrame_silent {f : Frame} {s t : State} (h : acceptFrame f s = .next t) : Silent s t := by
  unfold acceptFrame at h
  split at h
  · exact exec_silent h
  · cases h
    exact ⟨[_], rfl, by simp⟩

theorem tickStep_silent (p : Params) (d : Sensor) (s : State) : Silent s (tickStep p d s) := by
  rcases tickStep_cases p d s with ⟨-, h⟩ | ⟨-, -, h⟩ | ⟨-, -, h⟩ <;> rw [h] <;> exact .of_trace_eq rfl

/-- A bus action appends its transaction, answered or failed, and nothing else. -/
theorem perform_bus_trace {d : Slot} {op : BusOp} {after : List Byte → State → State}
    (confined : (Action.bus op after).Confined d) (s : State) (k : Nat) (ans : BusAnswer) :
    (s.perform d k ans (.bus op after)).trace = s.trace ++ [.bus d op (answerBytes op.asked ans)] := by
  cases ha : answerBytes op.asked ans with
  | some rd =>
    rw [State.perform_bus_ok after ha, (confined rd).trace_busLine, State.goto_trace, State.latchRead_trace]
    rfl
  | none =>
    rw [State.perform_bus_fail after ha]
    rfl

/-- A micro-step issues nothing, or one row of the table for its busy slot. -/
theorem microStep_silent_or_transacts {p : Params} {d : Slot} {s t : State} {ans : BusAnswer} (inv : Inv p s)
    (h : microStep p d ans s = .next t) : Silent s t ∨ s.guard.get d = true ∧ Transacts p d s t := by
  rcases microStep_cases h with ⟨-, rfl⟩ | ⟨hg, ho, ⟨k, act, at_k, hact, rfl⟩ | ⟨-, -, rfl⟩ | ⟨-, -, rfl⟩⟩
  · exact .inl (.of_trace_eq rfl)
  · have confined := programOf_confined p ho hact
    cases act with
    | bus op after =>
      have ok := inv.seq_ok d ((inv.guard_iff_running d).mp hg)
      exact .inr ⟨hg, op, _, programOf_onWire ok at_k hact, perform_bus_trace confined s k ans⟩
    | delay ms next => exact .inl ⟨[.delay d ms], rfl, by simp⟩
    | internal act =>
      obtain ⟨evs, trace⟩ := Writes.trace_internal confined (s.goto d (k + 1))
      exact .inl (.of_events trace)
    | retire final value => exact .inl (retire_ends confined s).silent
  · exact .inl (failExit_ends ..).silent
  · exact .inl (failExit_ends ..).silent

/-- An input but a reset issues nothing, or is a micro-step that issues one row of the table for its busy slot. -/
theorem deliver_silent_or_transacts {i : Input} {s t : State} (inv : Inv Config.params s) (not_reset : i ≠ .reset)
    (h : deliver i s = .next t) :
    Silent s t ∨ ∃ d ans, i = .micro d ans ∧ s.guard.get d = true ∧ Transacts Config.params d s t := by
  cases i with
  | cmd f => exact .inl (acceptFrame_silent h)
  | tick d => cases h; exact .inl (tickStep_silent Config.params d s)
  | micro d ans => exact (microStep_silent_or_transacts inv h).imp_right fun busy => ⟨d, ans, rfl, busy⟩
  | reset => exact absurd rfl not_reset

theorem filter_isBusOf_of_silent {es : List TraceEntry} (h : ∀ d op a, .bus d op a ∉ es) (d : Slot) :
    es.filter (TraceEntry.isBusOf d) = [] := by
  refine List.filter_eq_nil_iff.mpr fun e he => ?_
  cases e with
  | bus e op a => exact absurd he (h e op a)
  | delay | evt | rsp => exact Bool.false_ne_true

/-- Settles O13: a silent step appends no bus entry, and one that transacts appends the one of its micro-step. -/
theorem busOnlyByTheTable : Obligations.BusOnlyByTheTable := by
  intro i s t inv not_reset h
  rcases deliver_silent_or_transacts inv not_reset h with ⟨es, trace, silent⟩ | ⟨d, ans, rfl, busy, op, a, row, trace⟩
  · refine ⟨es, trace, fun d op a mem => absurd mem (silent d op a), fun d => ?_⟩
    rw [filter_isBusOf_of_silent silent d]
    exact Nat.zero_le 1
  · refine ⟨_, trace, fun e op' a' mem => ?_, fun e => List.length_filter_le _ _⟩
    cases List.mem_singleton.mp mem
    exact ⟨⟨ans, rfl⟩, busy, row⟩

end Sys2Proof.Machine
end

section
/-!
A slot that runs an operation: the state written with the running sequencer apart, one rule for each kind of action
(10_state.md rules R34, R35), and the rules composed to the run of a whole program. No program is named here.
-/

namespace Sys2Proof.Machine

/-! ### The state with a running sequencer apart -/

/-- `s` with slot `d` running what `q` holds: the state of `Started` and of `StartedByTick`. -/
def State.running (s : State) (d : Slot) (q : Seq) : State := (s.setGuard d true).setSeq d q

/-- `seq[d].step <- k`. -/
def Seq.goto (q : Seq) (k : Nat) : Seq := { q with step := .at k }

/-- `seq[d].rd <- rd`. -/
def Seq.withRd (q : Seq) (rd : List Byte) : Seq := { q with rd := rd }

/-- The sequencer's part of `State.latchRead`. -/
def Seq.latchRead (q : Seq) (op : BusOp) (rd : List Byte) : Seq :=
  match op with
  | .write _ => q
  | _ => q.withRd rd

@[simp] theorem State.running_guard_get (s : State) (d : Slot) (q : Seq) : (s.running d q).guard.get d = true := by
  simp [State.running]

@[simp] theorem State.running_seq_get (s : State) (d : Slot) (q : Seq) : (s.running d q).seq.get d = q := by
  simp [State.running]

@[simp] theorem State.running_setSeq (s : State) (d : Slot) (q q' : Seq) :
    (s.running d q).setSeq d q' = s.running d q' := by simp [State.running, State.setSeq]

@[simp] theorem State.running_goto (s : State) (d : Slot) (q : Seq) (k : Nat) :
    (s.running d q).goto d k = s.running d (q.goto k) := by simp [State.goto, Seq.goto]

@[simp] theorem State.running_raise (s : State) (d : Slot) (q : Seq) (e : Pending) :
    (s.running d q).raise d e = s.running d { q with exc := e, step := .failExit } := by simp [State.raise]

@[simp] theorem State.running_latchRead (s : State) (d : Slot) (q : Seq) (op : BusOp) (rd : List Byte) :
    (s.running d q).latchRead d op rd = s.running d (q.latchRead op rd) := by
  cases op <;> simp [State.latchRead, Seq.latchRead, Seq.withRd]

@[simp] theorem State.running_emit (s : State) (d : Slot) (q : Seq) (e : TraceEntry) :
    (s.running d q).emit e = (s.logged [e]).running d q := rfl

theorem PerSlot.set_of_get {α : Type} {v : PerSlot α} {d : Slot} {x : α} (h : v.get d = x) : v.set d x = v :=
  h ▸ v.set_get_self d

/-- A released slot leaves the state as it was before its operation, but for its sequencer. -/
theorem State.running_release {s : State} {d : Slot} (idle : s.guard.get d = false) (q : Seq) :
    (s.running d q).release d = s.setSeq d { q with op := .idle } := by
  simp [State.running, State.release, State.setGuard, State.setSeq, PerSlot.set_of_get idle]

theorem State.logged_setSeq (s : State) (d : Slot) (q : Seq) (es : List TraceEntry) :
    (s.setSeq d q).logged es = (s.logged es).setSeq d q := rfl

theorem State.logged_setRes (s : State) (d : Sensor) (v : Word) (b : Bool) (es : List TraceEntry) :
    (s.setRes d v b).logged es = (s.logged es).setRes d v b := rfl

/-! ### The start of an operation (47_poll.md rules R314, R321) -/

/-- A free slot starts; `latch` names the operation and whatever else the command latches. -/
theorem State.startCommand_started {s : State} {d : Slot} {latch : Seq → Seq} {op : Op} {more : Seq → Prop} (opcode : Byte)
    (free : Free d s) (latches : ∀ q, latch q = { q with op := op, ch := (latch q).ch, k := (latch q).k, n := (latch q).n })
    (extra : ∀ q, more (latch q)) : Started d opcode op more s (s.startCommand d opcode latch) := by
  rw [State.startCommand_free opcode latch free]
  refine ⟨latch { s.seq.get d with origin := .cmd, opcode := opcode, step := .at 1, exc := .none }, ?_, ?_, ?_, ?_, ?_,
    extra _, rfl⟩ <;> rw [latches]

theorem tickStep_startedByTick {p : Params} {d : Sensor} {s : State} (enabled : s.timerEn.get d = true)
    (idle : s.guard.get d.slot = false) : StartedByTick d.slot (cycleOp p d s) s (tickStep p d s) := by
  rcases tickStep_cases p d s with ⟨off, -⟩ | ⟨-, busy, -⟩ | ⟨-, -, h⟩
  · rw [enabled] at off; cases off
  · rw [idle] at busy; cases busy
  · rw [h]
    exact ⟨_, rfl, rfl, rfl, rfl, rfl, rfl⟩

/-! ### Micro-steps that go on with the operation (10_state.md rule R34) -/

/-- The answers take slot `d` from `q` to `q'`, still running, and the rest of the state from `s` to `s'`. -/
def Goes (d : Slot) (as : List BusAnswer) (s : State) (q : Seq) (s' : State) (q' : Seq) : Prop :=
  deliverAll (microSteps d as) (s.running d q) = .next (s'.running d q')

theorem Goes.trans {d : Slot} {as bs : List BusAnswer} {s₁ s₂ s₃ : State} {q₁ q₂ q₃ : Seq} (h : Goes d as s₁ q₁ s₂ q₂)
    (h' : Goes d bs s₂ q₂ s₃ q₃) : Goes d (as ++ bs) s₁ q₁ s₃ q₃ := by
  rw [Goes, microSteps_append, deliverAll_append _ h]
  exact h'

theorem Goes.runsTo {d : Slot} {as bs : List BusAnswer} {s s' final : State} {q q' : Seq} (h : Goes d as s q s' q')
    (h' : RunsTo d bs (s'.running d q') final) : RunsTo d (as ++ bs) (s.running d q) final := by
  obtain ⟨u, hu, ends⟩ := h'
  exact ⟨u, by rw [microSteps_append, deliverAll_append _ h, hu], ends⟩

/-- The sequencer `q` of slot `d` stands at step `k`, and the action there is `act`. -/
structure AtAction (d : Slot) (q : Seq) (k : Nat) (act : Action) : Prop where
  own_slot : q.op.slot = some d
  position : q.step = .at k
  action : programOf Config.params q k = some act

/-- The action is found in the program of the operation. -/
theorem AtAction.of_op {d : Slot} {q : Seq} {op : Op} {k : Nat} {act : Action} (hop : q.op = op) (own_slot : op.slot = some d)
    (position : q.step = .at k) (action : programOf Config.params { q with op := op } k = some act) : AtAction d q k act := by
  subst hop
  exact ⟨own_slot, position, action⟩

section Rules

variable {d : Slot} {q : Seq} {k : Nat}

theorem AtAction.deliver_micro {act : Action} (h : AtAction d q k act) (s : State) (a : BusAnswer) :
    deliver (.micro d a) (s.running d q) = .next ((s.running d q).perform d k a act) :=
  microStep_at a (by simp) (by simpa using h.own_slot) (by simpa using h.position) (by simpa using h.action)

/-- The next micro-step performs the action. -/
theorem AtAction.goes {act : Action} (h : AtAction d q k act) {s s' : State} {q' : Seq} {a : BusAnswer}
    (performs : (s.running d q).perform d k a act = s'.running d q') : Goes d [a] s q s' q' := by
  rw [Goes, microSteps, List.map_singleton, deliverAll_cons _ (h.deliver_micro s a), performs, deliverAll_nil]

theorem AtAction.goes_bus {op : BusOp} {after : List Byte → State → State} (h : AtAction d q k (.bus op after)) {s s' : State}
    {q' : Seq} {a : BusAnswer} {rd : List Byte} (answers : answerBytes op.asked a = some rd)
    (assigns : after rd ((s.logged [.bus d op (some rd)]).running d ((q.latchRead op rd).goto (k + 1))) = s'.running d q') :
    Goes d [a] s q s' q' :=
  h.goes (by simpa [State.perform_bus_ok after answers] using assigns)

theorem AtAction.goes_delay {ms : Half} {next : Nat} (h : AtAction d q k (.delay ms next)) (s : State) (a : BusAnswer) :
    Goes d [a] s q (s.logged [.delay d ms]) (q.goto next) :=
  h.goes (by simp [State.perform_delay])

theorem AtAction.goes_internal {act : State → State} (h : AtAction d q k (.internal act)) {s s' : State} {q' : Seq}
    (a : BusAnswer) (assigns : act (s.running d (q.goto (k + 1))) = s'.running d q') : Goes d [a] s q s' q' :=
  h.goes (by simpa [State.perform_internal] using assigns)

/-! ### The end of an operation (10_state.md rule R35; 60_exceptions.md rules R362, R366) -/

/-- A retire makes its final writes, gives up the slot, and answers a command. -/
theorem AtAction.runsTo_retire {final : State → State} {value : State → Word} (h : AtAction d q k (.retire final value))
    {s s' : State} (a : BusAnswer) (assigns : final (s.running d q) = s'.running d q) (idle : s'.guard.get d = false) :
    RunsTo d [a] (s.running d q) (s'.logged (responseTo q .ok (value (s'.running d q)))) := by
  refine ⟨_, deliverAll_cons [] (h.deliver_micro s a), { q with op := .idle }, rfl, ?_⟩
  simp [State.perform_retire, State.retire, assigns, State.running_release idle, State.answer_eq_logged, State.logged_setSeq]

/-- What a fail-exit of a `BusError` appends in slots 0 to 2: the event of a cycle, the answer to a command (rule R366). -/
def busErrorReport (d : Slot) (q : Seq) : List TraceEntry :=
  (if q.op.isCycle then [.evt (.sensorException .busError d.code)] else []) ++ responseTo q .busError 0#32

theorem responseTo_cmd {opcode : Byte} (origin : q.origin = .cmd) (ho : q.opcode = opcode) (status : Status) (value : Word) :
    responseTo q status value = [answered opcode status value] := by simp only [responseTo, origin, ho]

theorem responseTo_tick (origin : q.origin = .tick) (status : Status) (value : Word) : responseTo q status value = [] := by
  simp only [responseTo, origin]

/-- A primitive answers its failure and publishes nothing. -/
theorem busErrorReport_primitive {opcode : Byte} (d : Slot) (primitive : q.op.isCycle = false) (origin : q.origin = .cmd)
    (ho : q.opcode = opcode) : busErrorReport d q = [answered opcode .busError 0#32] := by
  simp [busErrorReport, primitive, responseTo_cmd origin ho]

theorem busErrorReport_cycle (d : Slot) (cycle : q.op.isCycle = true) :
    busErrorReport d q = .evt (.sensorException .busError d.code) :: responseTo q .busError 0#32 := by
  simp [busErrorReport, cycle]

theorem State.running_failExit_busError {s : State} (hd : d ≠ .pwm) (idle : s.guard.get d = false) (q : Seq) :
    (s.running d q).failExit d .busError .busError 0#32 =
      (s.logged (busErrorReport d q)).setSeq d { q with op := .idle, exc := .none } := by
  have report : (s.running d q).reportException d .busError =
      (s.logged (if q.op.isCycle then [.evt (.sensorException .busError d.code)] else [])).running d q := by
    simp only [State.reportException, if_neg hd, State.running_seq_get]
    split
    · rfl
    · rw [State.logged_nil]
  rw [State.failExit, show (s.running d q).markAbsent d .busError = s.running d q from rfl, report,
    State.running_release (by simpa using idle), State.answer_eq_logged, State.running_seq_get]
  simp [State.clearException, State.setSeq, State.logged, busErrorReport]

/-- A transaction that fails ends the operation at the next micro-step. -/
theorem AtAction.runsTo_fail {op : BusOp} {after : List Byte → State → State} (h : AtAction d q k (.bus op after))
    (hd : d ≠ .pwm) {s : State} (idle : s.guard.get d = false) (a : BusAnswer) :
    RunsTo d [.fail, a] (s.running d q) (s.logged (failed d op :: busErrorReport d q)) := by
  have raises : Goes d [.fail] s q (s.logged [failed d op]) { q with exc := .busError, step := .failExit } :=
    h.goes (by simp [State.perform_bus_fail after (show answerBytes op.asked .fail = none from rfl), failed])
  refine raises.runsTo (bs := [a]) ⟨_, deliverAll_cons [] (microStep_failExit_busError a ?_ ?_ ?_ ?_),
    { q with op := .idle, exc := .none, step := .failExit }, rfl, ?_⟩
  · simp
  · simpa using h.own_slot
  · simp
  · simp
  · rw [State.running_failExit_busError hd (by simpa using idle), State.logged_logged]
    rfl

end Rules

end Sys2Proof.Machine
end

section
/-!
The ADC family (41_codec_adc.md): the commands of one channel, and the cycle over the channels of the mask.
-/

namespace Sys2Proof.Machine

/-! ### Acceptance -/

theorem exec_adtrig_absent {b : Nat} (absent : Config.params.adcNchan ≤ b) (s : State) :
    exec (.adtrig b) s = .next (s.logged [answered 0x10#8 .absent 0#32]) := by
  simp only [exec, execAdtrig, acceptAdtrig, channelAbsent, absent, decide_true, if_true]
  rfl

theorem exec_admeas_absent {b : Nat} (absent : Config.params.adcNchan ≤ b) (s : State) :
    exec (.admeas b) s = .next ((s.setRes .adc 0#32 false).logged [answered 0x12#8 .absent 0#32]) := by
  simp only [exec, execAdmeas, acceptAdmeas, channelAbsent, absent, decide_true, if_true]
  rfl

/-- Settles O29: an absent channel is refused before the state of the slot is looked at. -/
theorem absentChannel : Obligations.AbsentChannel :=
  fun _ s absent _ => ⟨exec_adtrig_absent absent s, exec_admeas_absent absent s⟩

theorem exec_adtrig_started {b : Nat} {s : State} (supported : b < Config.params.adcNchan) (free : Free .adc s) :
    ∃ t, exec (.adtrig b) s = .next t ∧
      Started .adc 0x10#8 (.adtrig (cfgWord Config.params b)) (fun q => q.ch = BitVec.ofNat 8 b) s t := by
  refine ⟨_, rfl, ?_⟩
  simp only [acceptAdtrig, channelAbsent, Nat.not_le.mpr supported, decide_false, Bool.false_eq_true, if_false]
  exact State.startCommand_started _ free (fun _ => rfl) fun _ => rfl

theorem exec_admeas_started {b : Nat} {s : State} (supported : b < Config.params.adcNchan) (free : Free .adc s) :
    ∃ t, exec (.admeas b) s = .next t ∧
      Started .adc 0x12#8 (.admeas (cfgWord Config.params b) Config.params.adcConvDelayMs (Config.params.slave .adc))
        (fun q => q.ch = BitVec.ofNat 8 b) s t := by
  refine ⟨_, rfl, ?_⟩
  simp only [acceptAdmeas, channelAbsent, Nat.not_le.mpr supported, decide_false, Bool.false_eq_true, if_false]
  exact State.startCommand_started _ free (fun _ => rfl) fun _ => rfl

/-! ### The trigger and the reading -/

/-- The action that triggers a conversion of the channel in `q` (rule R141). -/
def triggerAction (cfg : Half) (q : Seq) : Action :=
  .bus (frameAdcTrigger Config.params cfg) fun _ s => { s with adcCurCh := q.ch }

/-- The entry of a trigger that the bus takes. -/
def triggered (cfg : Half) : TraceEntry := .bus .adc (frameAdcTrigger Config.params cfg) (some [])

/-- The trigger writes F1 and records the channel. -/
theorem AtAction.goes_trigger {q : Seq} {k : Nat} {cfg : Half} (h : AtAction .adc q k (triggerAction cfg q)) (s : State) :
    Goes .adc [.ok []] s q (State.logged { s with adcCurCh := q.ch } [triggered cfg]) (q.goto (k + 1)) :=
  h.goes_bus (rd := []) rfl rfl

/-- The two bytes of the result are read into the sequencer. -/
theorem AtAction.goes_result {q : Seq} {k : Nat} (h : AtAction .adc q k (.plain frameAdcResult)) (s : State) (hi lo : Byte) :
    Goes .adc [.ok [hi, lo]] s q (s.logged [readBack .adc 0x00#8 [hi, lo]]) ((q.withRd [hi, lo]).goto (k + 1)) :=
  h.goes_bus (rd := [hi, lo]) rfl rfl

/-! ### `ADTRIG` (rule R143) -/

section Adtrig

variable {q : Seq} {cfg : Half} (hop : q.op = .adtrig cfg) (hstep : q.step = .at 1) (origin : q.origin = .cmd)
  (opcode : q.opcode = 0x10#8)

include hop hstep origin opcode

theorem adtrig_runsTo {s : State} (idle : s.guard.adc = false) (a : BusAnswer) :
    RunsTo .adc [.ok [], a] (s.running .adc q)
      (State.logged { s with adcCurCh := q.ch } [triggered cfg, answered 0x10#8 .ok 0#32]) := by
  have triggers : AtAction .adc q 1 (triggerAction cfg q) := .of_op hop rfl hstep rfl
  have retires : AtAction .adc (q.goto 2) 2 (.retire id fun _ => 0#32) := .of_op hop rfl rfl rfl
  have runs := (triggers.goes_trigger s).runsTo (retires.runsTo_retire a rfl idle)
  rwa [responseTo_cmd (q := q.goto 2) origin opcode, State.logged_logged] at runs

theorem adtrig_runsTo_fail {s : State} (idle : s.guard.adc = false) (a : BusAnswer) :
    RunsTo .adc [.fail, a] (s.running .adc q)
      (s.logged [failed .adc (frameAdcTrigger Config.params cfg), answered 0x10#8 .busError 0#32]) := by
  have triggers : AtAction .adc q 1 (triggerAction cfg q) := .of_op hop rfl hstep rfl
  rw [← busErrorReport_primitive .adc (by rw [hop]; rfl) origin opcode]
  exact triggers.runsTo_fail (by decide) idle a

end Adtrig

/-- Settles O31: the trigger is one write, then the answer. -/
theorem adtrigTriggersAConversion : Obligations.AdtrigTriggersAConversion := by
  refine ⟨fun b a s supported free => ?_, fun b s absent _ => exec_adtrig_absent absent s⟩
  obtain ⟨t, accepted, started⟩ := exec_adtrig_started supported free
  refine ⟨t, accepted, started, ?_⟩
  obtain ⟨q, hop, origin, opcode, hstep, -, hch, rfl⟩ := started
  rw [← hch]
  exact ⟨adtrig_runsTo hop hstep origin opcode free.2 a, adtrig_runsTo_fail hop hstep origin opcode free.2 a⟩

/-! ### `ADREAD` (rule R144) -/

section Adread

variable {q : Seq} (hop : q.op = .adread) (hstep : q.step = .at 1) (origin : q.origin = .cmd) (opcode : q.opcode = 0x11#8)

include hop hstep origin opcode

theorem adread_runsTo {s : State} (idle : s.guard.adc = false) (a : BusAnswer) (hi lo : Byte) :
    RunsTo .adc [.ok [hi, lo], a] (s.running .adc q)
      ((s.setRes .adc (reading hi lo) true).logged
        [readBack .adc 0x00#8 [hi, lo], answered 0x11#8 .ok (reading hi lo)]) := by
  have reads : AtAction .adc q 1 (.plain frameAdcResult) := .of_op hop rfl hstep rfl
  have retires : AtAction .adc ((q.withRd [hi, lo]).goto 2) 2
      (.retire (fun s => s.setRes .adc (reading hi lo) true) fun s => s.res.adc) := .of_op hop rfl rfl rfl
  have runs := (reads.goes_result s hi lo).runsTo
    (retires.runsTo_retire (s' := (s.setRes .adc (reading hi lo) true).logged [readBack .adc 0x00#8 [hi, lo]]) a rfl idle)
  rwa [responseTo_cmd (q := (q.withRd [hi, lo]).goto 2) origin opcode, State.logged_logged] at runs

theorem adread_runsTo_fail {s : State} (idle : s.guard.adc = false) (a : BusAnswer) :
    RunsTo .adc [.fail, a] (s.running .adc q)
      (s.logged [failed .adc frameAdcResult, answered 0x11#8 .busError 0#32]) := by
  have reads : AtAction .adc q 1 (.plain frameAdcResult) := .of_op hop rfl hstep rfl
  rw [← busErrorReport_primitive .adc (by rw [hop]; rfl) origin opcode]
  exact reads.runsTo_fail (by decide) idle a

end Adread

/-- Settles O32: the read fills the sequencer, the retire `RES[0]`. -/
theorem adreadReadsTheResult : Obligations.AdreadReadsTheResult := by
  intro a s free
  have started : Started .adc 0x11#8 .adread (fun _ => True) s (acceptAdread s) :=
    State.startCommand_started _ free (fun _ => rfl) fun _ => trivial
  refine ⟨_, rfl, started, ?_⟩
  obtain ⟨q, hop, origin, opcode, hstep, -, -, ht⟩ := started
  rw [ht]
  exact ⟨adread_runsTo hop hstep origin opcode free.2 a, adread_runsTo_fail hop hstep origin opcode free.2 a⟩

/-! ### The measurement of a channel, as `ADMEAS` and the cycle share it (rules R145, R146, R147) -/

/-- From its step `k`, `q` triggers its channel, waits, reads, publishes the reading, and goes on at step `next`. -/
structure MeasuresAt (q : Seq) (k next : Nat) (cfg delayMs : Half) (address : BitVec 7) : Prop where
  cycle : q.op.isCycle = true
  trigger : AtAction .adc q k (triggerAction cfg q)
  delay : AtAction .adc (q.goto (k + 1)) (k + 1) (.delay delayMs (k + 2))
  read : AtAction .adc (q.goto (k + 2)) (k + 2) (.plain frameAdcResult)
  publish : ∀ rd, ∃ act, AtAction .adc ((q.withRd rd).goto (k + 3)) (k + 3) (.internal act) ∧
    ∀ s, act (s.goto .adc (k + 4)) = (adcPublish address (q.withRd rd) s).goto .adc next

/-- The state after the trigger of channel `ch` and its conversion delay. -/
def adcConverted (cfg delayMs : Half) (ch : Byte) (s : State) : State :=
  State.logged { s with adcCurCh := ch } [triggered cfg, .delay .adc delayMs]

/-- The state after the measurement of channel `ch`. -/
def adcMeasured (cfg delayMs : Half) (address : BitVec 7) (ch hi lo : Byte) (s : State) : State :=
  (State.logged { s with adcCurCh := ch }
    [triggered cfg, .delay .adc delayMs, readBack .adc 0x00#8 [hi, lo],
     .evt (.channelReadingDone (reading hi lo) ch (deviceAddress address))]).setRes .adc (reading hi lo) true

/-- The publish step puts the bytes read in `RES[0]` and in the event (rule R146). -/
theorem adcPublish_running (address : BitVec 7) (q q' : Seq) (hi lo : Byte) (s : State) :
    adcPublish address (q.withRd [hi, lo]) (s.running .adc q') =
      ((s.setRes .adc (reading hi lo) true).logged
        [.evt (.channelReadingDone (reading hi lo) q.ch (deviceAddress address))]).running .adc q' := rfl

namespace MeasuresAt

variable {q : Seq} {k next : Nat} {cfg delayMs : Half} {address : BitVec 7} (h : MeasuresAt q k next cfg delayMs address)

include h

theorem goes_converted (s : State) (a : BusAnswer) :
    Goes .adc [.ok [], a] s q (adcConverted cfg delayMs q.ch s) (q.goto (k + 2)) := by
  have goes := (h.trigger.goes_trigger s).trans (h.delay.goes_delay _ a)
  rwa [State.logged_logged] at goes

theorem goes_measured (s : State) (a : BusAnswer) (hi lo : Byte) :
    Goes .adc [.ok [], a, .ok [hi, lo], a] s q (adcMeasured cfg delayMs address q.ch hi lo s)
      ((q.withRd [hi, lo]).goto next) := by
  obtain ⟨act, publishes, assigns⟩ := h.publish [hi, lo]
  have reads := (h.goes_converted s a).trans (h.read.goes_result _ hi lo)
  rw [adcConverted, State.logged_logged] at reads
  refine reads.trans (publishes.goes_internal a ?_)
  rw [← State.running_goto, assigns, adcPublish_running, State.logged_setRes, State.logged_logged, State.running_goto]
  rfl

theorem runsTo_trigger_fail {s : State} (idle : s.guard.adc = false) (a : BusAnswer) :
    RunsTo .adc [.fail, a] (s.running .adc q)
      (s.logged (failed .adc (frameAdcTrigger Config.params cfg) :: .evt (.sensorException .busError 0#8) ::
        responseTo q .busError 0#32)) := by
  have runs := h.trigger.runsTo_fail (by decide) idle a
  rwa [busErrorReport_cycle .adc h.cycle] at runs

theorem runsTo_read_fail {s : State} (idle : s.guard.adc = false) (a : BusAnswer) :
    RunsTo .adc [.ok [], a, .fail, a] (s.running .adc q)
      (State.logged { s with adcCurCh := q.ch } (triggered cfg :: .delay .adc delayMs :: failed .adc frameAdcResult ::
        .evt (.sensorException .busError 0#8) :: responseTo q .busError 0#32)) := by
  have runs := (h.goes_converted s a).runsTo
    (h.read.runsTo_fail (s := adcConverted cfg delayMs q.ch s) (by decide) idle a)
  rwa [busErrorReport_cycle (q := q.goto (k + 2)) .adc h.cycle, adcConverted, State.logged_logged] at runs

end MeasuresAt

/-! ### `ADMEAS` (rule R145) -/

theorem admeas_measuresAt {q : Seq} {cfg delayMs : Half} {address : BitVec 7} (hop : q.op = .admeas cfg delayMs address)
    (hstep : q.step = .at 1) : MeasuresAt q 1 5 cfg delayMs address where
  cycle := by rw [hop]; rfl
  trigger := .of_op hop rfl hstep rfl
  delay := .of_op hop rfl rfl rfl
  read := .of_op hop rfl rfl rfl
  publish rd := ⟨_, .of_op hop rfl rfl rfl, fun _ => rfl⟩

theorem admeas_runsTo {q : Seq} {cfg delayMs : Half} {address : BitVec 7} {s : State}
    (hop : q.op = .admeas cfg delayMs address) (hstep : q.step = .at 1) (origin : q.origin = .cmd)
    (opcode : q.opcode = 0x12#8) (idle : s.guard.adc = false) (a : BusAnswer) (hi lo : Byte) :
    RunsTo .adc [.ok [], a, .ok [hi, lo], a, a] (s.running .adc q)
      ((adcMeasured cfg delayMs address q.ch hi lo s).logged [answered 0x12#8 .ok (reading hi lo)]) := by
  have retires : AtAction .adc ((q.withRd [hi, lo]).goto 5) 5 (.retire id fun s => s.res.adc) := .of_op hop rfl rfl rfl
  have runs := ((admeas_measuresAt hop hstep).goes_measured s a hi lo).runsTo (retires.runsTo_retire a rfl idle)
  rwa [responseTo_cmd (q := (q.withRd [hi, lo]).goto 5) origin opcode] at runs

/-- Settles O33: one measurement, and the answer. -/
theorem admeasMeasuresAChannel : Obligations.AdmeasMeasuresAChannel := by
  refine ⟨fun b a s supported free => ?_, fun b s absent _ => exec_admeas_absent absent s⟩
  obtain ⟨t, accepted, started⟩ := exec_admeas_started supported free
  refine ⟨t, accepted, started, ?_⟩
  obtain ⟨q, hop, origin, opcode, hstep, -, hch, rfl⟩ := started
  have measures := admeas_measuresAt hop hstep
  have writeFails := measures.runsTo_trigger_fail free.2 a
  have readFails := measures.runsTo_read_fail free.2 a
  rw [responseTo_cmd origin opcode] at writeFails readFails
  rw [← hch]
  refine ⟨fun hi lo => ?_, writeFails, readFails⟩
  have runs := admeas_runsTo hop hstep origin opcode free.2 a hi lo
  rwa [adcMeasured, State.logged_setRes, State.logged_logged] at runs

/-! ### The channels of the cycle (rule R147) -/

/-- The enabled and supported channels at or above `cursor`, ascending. -/
def enabledFrom (p : Params) (mask : Byte) (cursor : Nat) : List Nat :=
  (List.range (min 8 p.adcNchan)).filter fun ch => decide (cursor ≤ ch) && mask.getLsbD ch

theorem nextChannel_eq_head? (p : Params) (mask : Byte) (cursor : Nat) :
    nextChannel p mask cursor = (enabledFrom p mask cursor).head? := List.head?_filter.symm

theorem mem_enabledFrom {p : Params} {mask : Byte} {cursor ch : Nat} :
    ch ∈ enabledFrom p mask cursor ↔ (ch < 8 ∧ ch < p.adcNchan) ∧ cursor ≤ ch ∧ mask.getLsbD ch = true := by
  simp [enabledFrom]

/-- Past the channel that is next, the others are left. -/
theorem enabledFrom_succ {p : Params} {mask : Byte} {cursor ch : Nat} {rest : List Nat}
    (h : enabledFrom p mask cursor = ch :: rest) : enabledFrom p mask (ch + 1) = rest := by
  have le : cursor ≤ ch := (mem_enabledFrom.mp (h ▸ List.mem_cons_self)).2.1
  have ascending : (ch :: rest).Pairwise (· < ·) := h ▸ List.pairwise_lt_range.filter _
  have above : ∀ c ∈ rest, decide (ch + 1 ≤ c) = true := fun c hc => decide_eq_true (List.rel_of_pairwise_cons ascending hc)
  calc enabledFrom p mask (ch + 1) = (enabledFrom p mask cursor).filter fun c => decide (ch + 1 ≤ c) := by
        rw [enabledFrom, enabledFrom, List.filter_filter]
        refine List.filter_congr fun c _ => ?_
        by_cases hc : ch + 1 ≤ c
        · simp [hc, show cursor ≤ c by omega]
        · simp [hc]
    _ = rest := by
        rw [h, List.filter_cons_of_neg (by simp), List.filter_eq_self.mpr above]

theorem filter_lt_range : ∀ n ≤ 8, ((List.range 8).filter fun ch => decide (ch < n)) = List.range (min 8 n) := by decide

/-- The channels at or above 0 are those that the mask enables and the ADC supports. -/
theorem enabledFrom_zero (p : Params) (mask : Half) :
    enabledFrom p (mask.setWidth 8) 0 =
      (List.range 8).filter fun ch => decide (ch < p.adcNchan) && mask.getLsbD ch := by
  rw [enabledFrom, ← filter_lt_range p.adcNchan p.adcLastCh.isLt, List.filter_filter]
  refine List.filter_congr fun ch mem => ?_
  simp [List.mem_range.mp mem, Bool.and_comm]

/-! ### The cycle (rule R147) -/

/-- `q` is at step 1 of an ADC cycle that has these channels left to measure. -/
structure SelectsFrom (mask : Byte) (delayMs : Half) (address : BitVec 7) (q : Seq) (channels : List Nat) : Prop where
  op : q.op = .adcCycle mask delayMs address
  origin : q.origin = .tick
  position : q.step = .at 1
  left : enabledFrom Config.params mask q.cursor = channels

/-- `q` with the channel selected. -/
def Seq.selecting (q : Seq) (ch : Nat) : Seq := { q with ch := BitVec.ofNat 8 ch, cursor := ch + 1, step := .at 2 }

/-- The state after the cycle's measurement of channel `ch`, `r` giving the bytes read for each channel. -/
def cycleMeasured (delayMs : Half) (address : BitVec 7) (r : Nat → Byte × Byte) (s : State) (ch : Nat) : State :=
  adcMeasured (cfgWord Config.params ch) delayMs address (BitVec.ofNat 8 ch) (r ch).1 (r ch).2 s

/-- The answers to the five micro-steps of that measurement. -/
def cycleAnswers (a : BusAnswer) (r : Nat → Byte × Byte) (ch : Nat) : List BusAnswer :=
  [a, .ok [], a, .ok [(r ch).1, (r ch).2], a]

theorem guard_foldl_cycleMeasured (delayMs : Half) (address : BitVec 7) (r : Nat → Byte × Byte) (channels : List Nat)
    (s : State) : (channels.foldl (cycleMeasured delayMs address r) s).guard = s.guard := by
  induction channels generalizing s with
  | nil => rfl
  | cons ch rest ih => rw [List.foldl_cons, ih]; rfl

theorem adcCycle_measuresAt {q : Seq} {mask : Byte} {delayMs : Half} {address : BitVec 7}
    (hop : q.op = .adcCycle mask delayMs address) (hstep : q.step = .at 2) :
    MeasuresAt q 2 1 (cfgWord Config.params q.ch.toNat) delayMs address where
  cycle := by rw [hop]; rfl
  trigger := .of_op hop rfl hstep rfl
  delay := .of_op hop rfl rfl rfl
  read := .of_op hop rfl rfl rfl
  publish rd := ⟨_, .of_op hop rfl rfl rfl, fun _ => rfl⟩

namespace SelectsFrom

variable {mask : Byte} {delayMs : Half} {address : BitVec 7} {q : Seq} {ch : Nat} {channels rest : List Nat}

theorem atSelect (h : SelectsFrom mask delayMs address q channels) :
    AtAction .adc q 1 (.internal (adcCycleSelect Config.params mask q)) := .of_op h.op rfl h.position rfl

theorem nextChannel_eq (h : SelectsFrom mask delayMs address q channels) :
    nextChannel Config.params mask q.cursor = channels.head? := by rw [nextChannel_eq_head?, h.left]

/-- With a channel left, step 1 selects it. -/
theorem goes_selecting (h : SelectsFrom mask delayMs address q (ch :: rest)) (s : State) (a : BusAnswer) :
    Goes .adc [a] s q s (q.selecting ch) := by
  refine h.atSelect.goes_internal a ?_
  simp only [adcCycleSelect, h.nextChannel_eq, List.head?_cons]
  rfl

theorem measuresAt (h : SelectsFrom mask delayMs address q (ch :: rest)) :
    MeasuresAt (q.selecting ch) 2 1 (cfgWord Config.params ch) delayMs address := by
  have lt : ch < 8 := (mem_enabledFrom.mp (h.left ▸ List.mem_cons_self)).1.1
  have toNat : (q.selecting ch).ch.toNat = ch := by simp only [Seq.selecting, BitVec.toNat_ofNat]; omega
  have measures := adcCycle_measuresAt (q := q.selecting ch) h.op rfl
  rwa [toNat] at measures

/-- One round: the channel is measured, and the cycle is back at step 1 with the others left. -/
theorem goes_round (h : SelectsFrom mask delayMs address q (ch :: rest)) (s : State) (a : BusAnswer)
    (r : Nat → Byte × Byte) :
    ∃ q', SelectsFrom mask delayMs address q' rest ∧
      Goes .adc (cycleAnswers a r ch) s q (cycleMeasured delayMs address r s ch) q' :=
  ⟨((q.selecting ch).withRd [(r ch).1, (r ch).2]).goto 1, ⟨h.op, h.origin, rfl, enabledFrom_succ h.left⟩,
    (h.goes_selecting s a).trans (h.measuresAt.goes_measured s a (r ch).1 (r ch).2)⟩

/-- The rounds of the channels `before`, one after the other. -/
theorem goes_rounds {before : List Nat} (h : SelectsFrom mask delayMs address q channels) (split : channels = before ++ rest)
    (s : State) (a : BusAnswer) (r : Nat → Byte × Byte) :
    ∃ q', SelectsFrom mask delayMs address q' rest ∧
      Goes .adc (before.flatMap (cycleAnswers a r)) s q (before.foldl (cycleMeasured delayMs address r) s) q' := by
  subst split
  induction before generalizing q s with
  | nil => exact ⟨q, h, rfl⟩
  | cons ch before ih =>
    obtain ⟨q₁, selects₁, round⟩ := h.goes_round s a r
    obtain ⟨q₂, selects₂, rounds⟩ := ih (cycleMeasured delayMs address r s ch) selects₁
    exact ⟨q₂, selects₂, round.trans rounds⟩

/-- With no channel left, the cycle ends and answers nothing. -/
theorem runsTo_end (h : SelectsFrom mask delayMs address q []) {s : State} (idle : s.guard.adc = false) (a : BusAnswer) :
    RunsTo .adc [a, a] (s.running .adc q) s := by
  have ends : Goes .adc [a] s q s (q.goto 6) := by
    refine h.atSelect.goes_internal a ?_
    simp only [adcCycleSelect, h.nextChannel_eq, List.head?_nil]
    rfl
  have retires : AtAction .adc (q.goto 6) 6 (.retire id fun _ => 0#32) := .of_op h.op rfl rfl rfl
  have runs := ends.runsTo (retires.runsTo_retire a rfl idle)
  rwa [responseTo_tick (q := q.goto 6) h.origin, State.logged_nil] at runs

theorem runsTo_trigger_fail (h : SelectsFrom mask delayMs address q (ch :: rest)) {s : State} (idle : s.guard.adc = false)
    (a : BusAnswer) :
    RunsTo .adc [a, .fail, a] (s.running .adc q)
      (s.logged [failed .adc (frameAdcTrigger Config.params (cfgWord Config.params ch)),
        .evt (.sensorException .busError 0#8)]) := by
  have runs := (h.goes_selecting s a).runsTo (h.measuresAt.runsTo_trigger_fail idle a)
  rwa [responseTo_tick (q := q.selecting ch) h.origin] at runs

theorem runsTo_read_fail (h : SelectsFrom mask delayMs address q (ch :: rest)) {s : State} (idle : s.guard.adc = false)
    (a : BusAnswer) :
    RunsTo .adc [a, .ok [], a, .fail, a] (s.running .adc q)
      (State.logged { s with adcCurCh := BitVec.ofNat 8 ch }
        [triggered (cfgWord Config.params ch), .delay .adc delayMs, failed .adc frameAdcResult,
          .evt (.sensorException .busError 0#8)]) := by
  have runs := (h.goes_selecting s a).runsTo (h.measuresAt.runsTo_read_fail idle a)
  rwa [responseTo_tick (q := q.selecting ch) h.origin] at runs

end SelectsFrom

/-- Settles O34: by the rounds of the channels measured, from the tick that starts the cycle; then the end, or the failure of the
channel that is next. -/
theorem adcCycleMeasuresTheMask : Obligations.AdcCycleMeasuresTheMask := by
  intro a r s enabled idle
  have started := tickStep_startedByTick (p := Config.params) (d := .adc) enabled idle
  refine ⟨_, rfl, started, ?_⟩
  obtain ⟨q, hop, origin, hstep, cursor, -, ht⟩ := started
  rw [ht]
  have selects : SelectsFrom (s.adcChmask.setWidth 8) Config.params.adcConvDelayMs (Config.params.slave .adc) q
      ((List.range 8).filter fun ch => decide (ch < Config.params.adcNchan) && s.adcChmask.getLsbD ch) :=
    ⟨hop, origin, hstep, by rw [cursor, enabledFrom_zero]⟩
  have idle_after (channels : List Nat) := (guard_foldl_cycleMeasured Config.params.adcConvDelayMs
    (Config.params.slave .adc) r channels s).symm ▸ idle
  constructor
  · obtain ⟨q', done, rounds⟩ := selects.goes_rounds (List.append_nil _).symm s a r
    exact rounds.runsTo (done.runsTo_end (idle_after _) a)
  · intro before rest ch split
    obtain ⟨q', next, rounds⟩ := selects.goes_rounds split s a r
    exact ⟨rounds.runsTo (next.runsTo_trigger_fail (idle_after before) a),
      rounds.runsTo (next.runsTo_read_fail (idle_after before) a)⟩

end Sys2Proof.Machine
end

section
/-!
The transactions of slot 1 (42_codec_pxa.md rules R162, R171), shared by the primitives, `PXMEAS` and the PXA cycle, and the end of
a wait whose budget is used up (rule R173).
-/

namespace Sys2Proof.Machine

/-! ### The state after status reads -/

/-- `s` after transactions that appended `es` and read the status register last as `b`. -/
def State.observed (s : State) (b : Byte) (es : List TraceEntry) : State := State.logged { s with lastStatus := b } es

@[simp] theorem State.observed_guard (s : State) (b : Byte) (es : List TraceEntry) : (s.observed b es).guard = s.guard := rfl

@[simp] theorem State.observed_lastStatus (s : State) (b : Byte) (es : List TraceEntry) : (s.observed b es).lastStatus = b := rfl

@[simp] theorem State.observed_observed (s : State) (b c : Byte) (es fs : List TraceEntry) :
    (s.observed b es).observed c fs = s.observed c (es ++ fs) := by simp [State.observed, State.logged]

@[simp] theorem State.observed_logged (s : State) (b : Byte) (es fs : List TraceEntry) :
    (s.observed b es).logged fs = s.observed b (es ++ fs) := by simp [State.observed]

theorem State.observed_nil (s : State) : s.observed s.lastStatus [] = s := State.logged_nil s

/-! ### The transactions -/

/-- The bytes of a status read, and `tmp` holding the first. -/
def Seq.latchStatus (q : Seq) (b : Byte) : Seq := { q with rd := [b], tmp := b }

/-- A status read of the wait: its byte, and one read fewer left. -/
def Seq.countRead (q : Seq) (b : Byte) : Seq := { q with rd := [b], n := q.n - 1#16 }

/-- A `Timeout` pending, the fail-exit next. -/
def Seq.expired (q : Seq) : Seq := { q with exc := .timeout, step := .failExit }

section Transactions

variable {q : Seq} {j : Nat}

/-- The trigger's read of 0x80. -/
theorem AtAction.goes_triggerRead (h : AtAction .pxa q j (.bus framePxaStatus statusToTmp)) (s : State) (tmp : Byte) :
    Goes .pxa [.ok [tmp]] s q (s.observed tmp [readBack .pxa 0x80#8 [tmp]]) ((q.latchStatus tmp).goto (j + 1)) :=
  h.goes_bus (rd := [tmp]) rfl rfl

/-- The trigger's write of 0x80, with the kind's bit set. -/
theorem AtAction.goes_triggerWrite (h : AtAction .pxa q j (.plain (framePxaTrigger q.tmp q.k))) (s : State) :
    Goes .pxa [.ok []] s q (s.logged [wrote .pxa [0x80#8, triggerByte q.k q.tmp]]) (q.goto (j + 1)) := by
  rw [← triggerByte_eq]
  exact h.goes_bus (rd := []) rfl rfl

/-- The two bytes of the kind's result are read into the sequencer. -/
theorem AtAction.goes_pxaResult (h : AtAction .pxa q j (.plain (framePxaResult q.k))) (s : State) (hi lo : Byte) :
    Goes .pxa [.ok [hi, lo]] s q (s.logged [readBack .pxa (resultOf q.k) [hi, lo]]) ((q.withRd [hi, lo]).goto (j + 1)) := by
  rw [← resultOf_eq]
  exact h.goes_bus (rd := [hi, lo]) rfl rfl

theorem AtAction.runsTo_status_fail {after : List Byte → State → State} (h : AtAction .pxa q j (.bus framePxaStatus after))
    {s : State} (idle : s.guard.pxa = false) (a : BusAnswer) :
    RunsTo .pxa [.fail, a] (s.running .pxa q)
      (s.logged (failed .pxa (.writeThenRead [0x80#8] 1) :: busErrorReport .pxa q)) :=
  h.runsTo_fail (by decide) idle a

theorem AtAction.runsTo_triggerWrite_fail (h : AtAction .pxa q j (.plain (framePxaTrigger q.tmp q.k))) {s : State}
    (idle : s.guard.pxa = false) (a : BusAnswer) :
    RunsTo .pxa [.fail, a] (s.running .pxa q)
      (s.logged (failed .pxa (.write [0x80#8, triggerByte q.k q.tmp]) :: busErrorReport .pxa q)) := by
  rw [← triggerByte_eq]
  exact h.runsTo_fail (by decide) idle a

theorem AtAction.runsTo_pxaResult_fail (h : AtAction .pxa q j (.plain (framePxaResult q.k))) {s : State}
    (idle : s.guard.pxa = false) (a : BusAnswer) :
    RunsTo .pxa [.fail, a] (s.running .pxa q)
      (s.logged (failed .pxa (.writeThenRead [resultOf q.k] 2) :: busErrorReport .pxa q)) := by
  rw [← resultOf_eq]
  exact h.runsTo_fail (by decide) idle a

/-! ### The ready wait (rule R171) -/

variable {readyStep delayStep : Nat}

theorem AtAction.goes_test (h : AtAction .pxa q j (.internal (waitTest readyStep q))) (left : q.n ≠ 0#16) (s : State)
    (a : BusAnswer) : Goes .pxa [a] s q s (q.goto readyStep) :=
  h.goes_internal a (by simp [waitTest, left, Seq.goto])

theorem AtAction.goes_test_expired (h : AtAction .pxa q j (.internal (waitTest readyStep q))) (none_left : q.n = 0#16)
    (s : State) (a : BusAnswer) : Goes .pxa [a] s q s q.expired :=
  h.goes_internal a (by simp [waitTest, none_left, Seq.expired, Seq.goto])

/-- What the check of a status byte leaves running: the wait is over, or expired, or goes on. -/
theorem waitCheck_running (readyStep delayStep : Nat) (q q' : Seq) (b : Byte) (s : State) :
    waitCheck readyStep delayStep q [b] (s.running .pxa q') = State.running { s with lastStatus := b } .pxa
      (if showsReady q.k b = true then { q' with n := q.n - 1#16 }.goto readyStep
        else if q.n - 1#16 = 0#16 then { q' with n := q.n - 1#16 }.expired
        else { q' with n := q.n - 1#16 }.goto delayStep) := by
  have counted : State.setSeq { s.running .pxa q' with lastStatus := b } .pxa
      { (s.running .pxa q').seq.pxa with n := q.n - 1#16 } =
        State.running { s with lastStatus := b } .pxa { q' with n := q.n - 1#16 } := rfl
  simp only [waitCheck, isReady_eq, byteAt, List.getD_cons_zero, counted, State.running_goto, State.running_raise,
    apply_ite (State.running { s with lastStatus := b } .pxa), Seq.expired]

/-- A status read of the wait. -/
theorem AtAction.goes_check (h : AtAction .pxa q j (.bus framePxaStatus (waitCheck readyStep delayStep q))) (s : State) (b : Byte) :
    Goes .pxa [.ok [b]] s q (s.observed b [readBack .pxa 0x80#8 [b]])
      (if showsReady q.k b = true then (q.countRead b).goto readyStep
        else if q.n - 1#16 = 0#16 then (q.countRead b).expired
        else (q.countRead b).goto delayStep) :=
  h.goes_bus (rd := [b]) rfl (waitCheck_running readyStep delayStep q _ b _)

end Transactions

/-! ### The end by a `Timeout` (rule R173; 60_exceptions.md rule R366) -/

theorem State.running_failExit_timeout {s : State} (idle : s.guard.pxa = false) {q : Seq} (cycle : q.op.isCycle = true) :
    (s.running .pxa q).failExit .pxa .timeout .timeout absentReading =
      ((s.setRes .pxa absentReading false).logged
        (.evt (.sensorException .timeout 1#8) :: responseTo q .timeout absentReading)).setSeq .pxa
          { q with op := .idle, exc := .none } := by
  have report : ((s.running .pxa q).markAbsent .pxa .timeout).reportException .pxa .timeout =
      ((s.setRes .pxa absentReading false).logged [.evt (.sensorException .timeout 1#8)]).running .pxa q := by
    simp only [State.reportException, reduceCtorEq, if_false, State.markAbsent_seq, State.running_seq_get, cycle, if_true]
    rfl
  rw [State.failExit, report, State.running_release (by simpa using idle), State.answer_eq_logged, State.running_seq_get]
  simp [State.clearException, State.setSeq, State.logged]

theorem deliver_micro_expired {d : Slot} {q : Seq} (own_slot : q.op.slot = some d) (s : State) (a : BusAnswer) :
    deliver (.micro d a) (s.running d q.expired) =
      .next ((s.running d q.expired).failExit d .timeout .timeout absentReading) :=
  microStep_failExit_timeout a (by simp) (by simpa [Seq.expired] using own_slot) (by simp [Seq.expired]) (by simp [Seq.expired])

/-- An expired wait ends the cycle at the next micro-step. -/
theorem runsTo_expired {s : State} (idle : s.guard.pxa = false) {q : Seq} (own_slot : q.op.slot = some .pxa)
    (cycle : q.op.isCycle = true) (a : BusAnswer) :
    RunsTo .pxa [a] (s.running .pxa q.expired)
      ((s.setRes .pxa absentReading false).logged
        (.evt (.sensorException .timeout 1#8) :: responseTo q .timeout absentReading)) := by
  refine ⟨_, deliverAll_cons [] (deliver_micro_expired own_slot s a), { q.expired with op := .idle, exc := .none }, rfl, ?_⟩
  rw [State.running_failExit_timeout (q := q.expired) idle cycle]
  rfl

end Sys2Proof.Machine
end

section
/-!
The primitives of slot 1 (42_codec_pxa.md rules R163, R165, R167, R175).
-/

namespace Sys2Proof.Machine

/-! ### `PXTRIG` (rule R163) -/

section Pxtrig

variable {q : Seq} (hop : q.op = .pxtrig) (hstep : q.step = .at 1) (origin : q.origin = .cmd) (opcode : q.opcode = 0x20#8)

include hop hstep

theorem pxtrig_atRead : AtAction .pxa q 1 (.bus framePxaStatus statusToTmp) := .of_op hop rfl hstep rfl

omit hstep in
theorem pxtrig_atWrite (tmp : Byte) :
    AtAction .pxa ((q.latchStatus tmp).goto 2) 2 (.plain (framePxaTrigger tmp q.k)) := .of_op hop rfl rfl rfl

include origin opcode

theorem pxtrig_runsTo {s : State} (idle : s.guard.pxa = false) (tmp : Byte) (a : BusAnswer) :
    RunsTo .pxa [.ok [tmp], .ok [], a] (s.running .pxa q)
      (s.observed tmp (triggerTrace q.k tmp ++ [answered 0x20#8 .ok 0#32])) := by
  have retires : AtAction .pxa ((q.latchStatus tmp).goto 3) 3 (.retire id fun _ => 0#32) := .of_op hop rfl rfl rfl
  have triggered := ((pxtrig_atRead hop hstep).goes_triggerRead s tmp).trans ((pxtrig_atWrite hop tmp).goes_triggerWrite _)
  rw [State.observed_logged] at triggered
  have runs := triggered.runsTo (retires.runsTo_retire a rfl idle)
  rwa [responseTo_cmd (q := (q.latchStatus tmp).goto 3) origin opcode, State.observed_logged] at runs

theorem pxtrig_runsTo_read_fail {s : State} (idle : s.guard.pxa = false) (a : BusAnswer) :
    RunsTo .pxa [.fail, a] (s.running .pxa q)
      (s.logged [failed .pxa (.writeThenRead [0x80#8] 1), answered 0x20#8 .busError 0#32]) := by
  rw [← busErrorReport_primitive .pxa (by rw [hop]; rfl) origin opcode]
  exact (pxtrig_atRead hop hstep).runsTo_status_fail idle a

theorem pxtrig_runsTo_write_fail {s : State} (idle : s.guard.pxa = false) (tmp : Byte) (a : BusAnswer) :
    RunsTo .pxa [.ok [tmp], .fail, a] (s.running .pxa q)
      (s.observed tmp [readBack .pxa 0x80#8 [tmp], failed .pxa (.write [0x80#8, triggerByte q.k tmp]),
        answered 0x20#8 .busError 0#32]) := by
  have primitive : ((q.latchStatus tmp).goto 2).op.isCycle = false := by
    change q.op.isCycle = false
    rw [hop]
    rfl
  have runs := ((pxtrig_atRead hop hstep).goes_triggerRead s tmp).runsTo
    ((pxtrig_atWrite hop tmp).runsTo_triggerWrite_fail (by simpa using idle) a)
  rwa [busErrorReport_primitive .pxa primitive origin opcode, State.observed_logged] at runs

end Pxtrig

/-- Settles O35: the read fills `tmp`, the write is made of it. -/
theorem pxtrigReadsBeforeItWrites : Obligations.PxtrigReadsBeforeItWrites := by
  intro k tmp a s free
  have started : Started .pxa 0x20#8 .pxtrig (fun q => q.k = k) s (acceptPxtrig k s) :=
    State.startCommand_started _ free (fun _ => rfl) fun _ => rfl
  refine ⟨_, rfl, started, ?_⟩
  obtain ⟨q, hop, origin, opcode, hstep, -, rfl, ht⟩ := started
  rw [ht]
  exact ⟨pxtrig_runsTo hop hstep origin opcode free.2 tmp a, pxtrig_runsTo_read_fail hop hstep origin opcode free.2 a,
    pxtrig_runsTo_write_fail hop hstep origin opcode free.2 tmp a⟩

/-! ### `PXRDY` (rule R165) -/

section Pxrdy

variable {q : Seq} (hop : q.op = .pxrdy) (hstep : q.step = .at 1) (origin : q.origin = .cmd) (opcode : q.opcode = 0x21#8)

include hop hstep

theorem pxrdy_atRead :
    AtAction .pxa q 1 (.bus framePxaStatus fun rd s => { s with lastStatus := byteAt rd 0 }) := .of_op hop rfl hstep rfl

include origin opcode

theorem pxrdy_runsTo {s : State} (idle : s.guard.pxa = false) (status : Byte) (a : BusAnswer) :
    RunsTo .pxa [.ok [status], a] (s.running .pxa q)
      (s.observed status [readBack .pxa 0x80#8 [status],
        answered 0x21#8 .ok (if showsReady q.k status = true then 1#32 else 0#32)]) := by
  have reads : Goes .pxa [.ok [status]] s q (s.observed status [readBack .pxa 0x80#8 [status]])
      ((q.withRd [status]).goto 2) := (pxrdy_atRead hop hstep).goes_bus (rd := [status]) rfl rfl
  have retires : AtAction .pxa ((q.withRd [status]).goto 2) 2 (.retire id fun _ => bitValue (isReady q.k status)) :=
    .of_op hop rfl rfl rfl
  have runs := reads.runsTo (retires.runsTo_retire a rfl idle)
  rwa [responseTo_cmd (q := (q.withRd [status]).goto 2) origin opcode, State.observed_logged, isReady_eq] at runs

theorem pxrdy_runsTo_fail {s : State} (idle : s.guard.pxa = false) (a : BusAnswer) :
    RunsTo .pxa [.fail, a] (s.running .pxa q)
      (s.logged [failed .pxa (.writeThenRead [0x80#8] 1), answered 0x21#8 .busError 0#32]) := by
  rw [← busErrorReport_primitive .pxa (by rw [hop]; rfl) origin opcode]
  exact (pxrdy_atRead hop hstep).runsTo_status_fail idle a

end Pxrdy

/-- Settles O36: one status read, and the bit of it that the kind asks for. -/
theorem pxrdyTestsTheReadyBit : Obligations.PxrdyTestsTheReadyBit := by
  intro k status a s free
  have started : Started .pxa 0x21#8 .pxrdy (fun q => q.k = k) s (acceptPxrdy k s) :=
    State.startCommand_started _ free (fun _ => rfl) fun _ => rfl
  refine ⟨_, rfl, started, ?_⟩
  obtain ⟨q, hop, origin, opcode, hstep, -, rfl, ht⟩ := started
  rw [ht]
  exact ⟨pxrdy_runsTo hop hstep origin opcode free.2 status a, pxrdy_runsTo_fail hop hstep origin opcode free.2 a⟩

/-! ### `PXREAD` (rule R167) -/

section Pxread

variable {q : Seq} (hop : q.op = .pxread) (hstep : q.step = .at 1) (origin : q.origin = .cmd) (opcode : q.opcode = 0x22#8)

include hop hstep

theorem pxread_atRead : AtAction .pxa q 1 (.plain (framePxaResult q.k)) := .of_op hop rfl hstep rfl

include origin opcode

theorem pxread_runsTo {s : State} (idle : s.guard.pxa = false) (a : BusAnswer) (hi lo : Byte) :
    RunsTo .pxa [.ok [hi, lo], a] (s.running .pxa q)
      ((s.setRes .pxa (reading hi lo) true).logged
        [readBack .pxa (resultOf q.k) [hi, lo], answered 0x22#8 .ok (reading hi lo)]) := by
  have retires : AtAction .pxa ((q.withRd [hi, lo]).goto 2) 2
      (.retire (fun s => s.setRes .pxa (reading hi lo) true) fun s => s.res.pxa) := .of_op hop rfl rfl rfl
  have runs := ((pxread_atRead hop hstep).goes_pxaResult s hi lo).runsTo (retires.runsTo_retire
    (s' := (s.setRes .pxa (reading hi lo) true).logged [readBack .pxa (resultOf q.k) [hi, lo]]) a rfl idle)
  rwa [responseTo_cmd (q := (q.withRd [hi, lo]).goto 2) origin opcode, State.logged_logged] at runs

theorem pxread_runsTo_fail {s : State} (idle : s.guard.pxa = false) (a : BusAnswer) :
    RunsTo .pxa [.fail, a] (s.running .pxa q)
      (s.logged [failed .pxa (.writeThenRead [resultOf q.k] 2), answered 0x22#8 .busError 0#32]) := by
  rw [← busErrorReport_primitive .pxa (by rw [hop]; rfl) origin opcode]
  exact (pxread_atRead hop hstep).runsTo_pxaResult_fail idle a

end Pxread

/-- Settles O37: the read fills the sequencer, the retire `RES[1]`. -/
theorem pxreadReadsTheResult : Obligations.PxreadReadsTheResult := by
  intro k a s free
  have started : Started .pxa 0x22#8 .pxread (fun q => q.k = k) s (acceptPxread k s) :=
    State.startCommand_started _ free (fun _ => rfl) fun _ => rfl
  refine ⟨_, rfl, started, ?_⟩
  obtain ⟨q, hop, origin, opcode, hstep, -, rfl, ht⟩ := started
  rw [ht]
  exact ⟨pxread_runsTo hop hstep origin opcode free.2 a, pxread_runsTo_fail hop hstep origin opcode free.2 a⟩

/-! ### `PXLED` (rule R175) -/

theorem exec_pxled_started {units : Nat} {s : State} (legal : units ≤ 20) (free : Free .pxa s) :
    ∃ t, exec (.pxled units) s = .next t ∧
      Started .pxa 0x24#8 (.pxled (BitVec.ofNat 16 units)) (fun _ => True) s t := by
  refine ⟨_, rfl, ?_⟩
  simp only [acceptPxled, (unitsLegal_iff units).mpr legal, if_true]
  exact State.startCommand_started _ free (fun _ => rfl) fun _ => trivial

theorem exec_pxled_rangeError {units : Nat} (illegal : 20 < units) (s : State) :
    exec (.pxled units) s = .next (s.logged [answered 0x24#8 .rangeError 0#32]) := by
  have refused : ¬ unitsLegal units = true := by rw [unitsLegal_iff]; omega
  simp only [exec, execPxled, acceptPxled, if_neg refused]
  rfl

/-- The units that `PXLED` latches are written as one byte. -/
theorem framePxaLed_ofNat {units : Nat} (legal : units ≤ 20) :
    framePxaLed (BitVec.ofNat 16 units) = .write [0x83#8, BitVec.ofNat 8 units] := by
  rw [framePxaLed, lo8_ofNat, Nat.mod_eq_of_lt (by omega)]
  rfl

section Pxled

variable {q : Seq} {units : Half} (hop : q.op = .pxled units) (hstep : q.step = .at 1) (origin : q.origin = .cmd)
  (opcode : q.opcode = 0x24#8)

include hop hstep

theorem pxled_atWrite : AtAction .pxa q 1 (.plain (framePxaLed units)) := .of_op hop rfl hstep rfl

include origin opcode

theorem pxled_runsTo {s : State} (idle : s.guard.pxa = false) (a : BusAnswer) :
    RunsTo .pxa [.ok [], a] (s.running .pxa q)
      (s.logged [.bus .pxa (framePxaLed units) (some []), answered 0x24#8 .ok 0#32]) := by
  have writes : Goes .pxa [.ok []] s q (s.logged [.bus .pxa (framePxaLed units) (some [])]) (q.goto 2) :=
    (pxled_atWrite hop hstep).goes_bus (rd := []) rfl rfl
  have retires : AtAction .pxa (q.goto 2) 2 (.retire id fun _ => 0#32) := .of_op hop rfl rfl rfl
  have runs := writes.runsTo (retires.runsTo_retire a rfl idle)
  rwa [responseTo_cmd (q := q.goto 2) origin opcode, State.logged_logged] at runs

theorem pxled_runsTo_fail {s : State} (idle : s.guard.pxa = false) (a : BusAnswer) :
    RunsTo .pxa [.fail, a] (s.running .pxa q)
      (s.logged [failed .pxa (framePxaLed units), answered 0x24#8 .busError 0#32]) := by
  rw [← busErrorReport_primitive .pxa (by rw [hop]; rfl) origin opcode]
  exact (pxled_atWrite hop hstep).runsTo_fail (by decide) idle a

end Pxled

/-- Settles O41: one write of a legal current; above 20 units the refusal. -/
theorem pxledSetsTheCurrent : Obligations.PxledSetsTheCurrent := by
  refine ⟨fun units a s legal free => ?_, fun units s illegal _ => exec_pxled_rangeError illegal s⟩
  obtain ⟨t, accepted, started⟩ := exec_pxled_started legal free
  refine ⟨t, accepted, started, ?_⟩
  obtain ⟨q, hop, origin, opcode, hstep, -, -, rfl⟩ := started
  have writes := pxled_runsTo hop hstep origin opcode free.2 a
  have writeFails := pxled_runsTo_fail hop hstep origin opcode free.2 a
  rw [framePxaLed_ofNat legal] at writes writeFails
  exact ⟨writes, writeFails⟩

end Sys2Proof.Machine
end

section
/-!
One measurement of slot 1, as `PXMEAS` and the PXA cycle share it (42_codec_pxa.md rules R170 to R174): the trigger, the bounded
wait, the result, and every way it ends the operation.
-/

namespace Sys2Proof.Machine

/-! ### The stages of a measurement -/

/-- `q` is at step `j` of the work that `q₀` began: only `step`, `tmp`, `rd`, `n` and `exc` can differ. -/
structure Seq.Stage (q₀ : Seq) (j : Nat) (q : Seq) : Prop where
  op : q.op = q₀.op
  origin : q.origin = q₀.origin
  opcode : q.opcode = q₀.opcode
  kind : q.k = q₀.k
  cursor : q.cursor = q₀.cursor
  position : q.step = .at j

namespace Seq.Stage

variable {q₀ q : Seq} {j : Nat}

theorem goto (h : q₀.Stage j q) (i : Nat) : q₀.Stage i (q.goto i) := ⟨h.op, h.origin, h.opcode, h.kind, h.cursor, rfl⟩

theorem countRead (h : q₀.Stage j q) (b : Byte) : q₀.Stage j (q.countRead b) :=
  ⟨h.op, h.origin, h.opcode, h.kind, h.cursor, h.position⟩

theorem withRd (h : q₀.Stage j q) (rd : List Byte) : q₀.Stage j (q.withRd rd) :=
  ⟨h.op, h.origin, h.opcode, h.kind, h.cursor, h.position⟩

theorem latchStatus (q₀ : Seq) (b : Byte) (i : Nat) : q₀.Stage i ((q₀.latchStatus b).goto i) := ⟨rfl, rfl, rfl, rfl, rfl, rfl⟩

theorem responseTo_eq (h : q₀.Stage j q) (status : Status) (value : Word) :
    responseTo q status value = responseTo q₀ status value := by simp only [responseTo, h.origin, h.opcode]

theorem busErrorReport_eq (h : q₀.Stage j q) : busErrorReport .pxa q = busErrorReport .pxa q₀ := by
  simp only [busErrorReport, h.responseTo_eq, h.op]

end Seq.Stage

/-- From its step `b`, `q₀` triggers its kind, waits for it to show ready, reads and publishes its result, and goes on at step
`next`. -/
structure MeasuresKindAt (q₀ : Seq) (b next : Nat) (gap : Half) : Prop where
  cycle : q₀.op.isCycle = true
  triggerRead : AtAction .pxa q₀ b (.bus framePxaStatus statusToTmp)
  triggerWrite {q : Seq} : q₀.Stage (b + 1) q → AtAction .pxa q (b + 1) (.plain (framePxaTrigger q.tmp q.k))
  test {q : Seq} : q₀.Stage (b + 2) q → AtAction .pxa q (b + 2) (.internal (waitTest (b + 3) q))
  check {q : Seq} : q₀.Stage (b + 3) q → AtAction .pxa q (b + 3) (.bus framePxaStatus (waitCheck (b + 5) (b + 4) q))
  delay {q : Seq} : q₀.Stage (b + 4) q → AtAction .pxa q (b + 4) (.delay gap (b + 3))
  read {q : Seq} : q₀.Stage (b + 5) q → AtAction .pxa q (b + 5) (.plain (framePxaResult q.k))
  publish {q : Seq} {hi lo : Byte} : q₀.Stage (b + 6) q → q.rd = [hi, lo] → ∀ (s : State) (a : BusAnswer),
    Goes .pxa [a] s q ((s.logged [.evt (dataEvent Config.params q.k hi lo)]).setRes .pxa (reading hi lo) true) (q.goto next)

/-- The answers to the status reads of a wait that show nothing ready, each with the delay after it. -/
def pollAnswers (waiting : List Byte) (a : BusAnswer) : List BusAnswer := waiting.flatMap fun b => [.ok [b], a]

/-- The entries of those reads and delays. -/
def pollTrace (waiting : List Byte) (gap : Half) : List TraceEntry :=
  waiting.flatMap fun b => [readBack .pxa 0x80#8 [b], .delay .pxa gap]

/-- A wait polls, and ends with a read. -/
theorem waitAnswers_concat (waiting : List Byte) (last : Byte) (a : BusAnswer) :
    waitAnswers (waiting ++ [last]) a = pollAnswers waiting a ++ [.ok [last]] := intersperse_map_concat _ _ _ _

theorem waitTrace_concat (waiting : List Byte) (last : Byte) (gap : Half) :
    waitTrace (waiting ++ [last]) gap = pollTrace waiting gap ++ [readBack .pxa 0x80#8 [last]] := intersperse_map_concat _ _ _ _

/-- The publish step puts the bytes read in `RES[1]` and in the kind's event (rule R172). -/
theorem pxaPublish_running {q : Seq} {hi lo : Byte} (bytes : q.rd = [hi, lo]) (q' : Seq) (s : State) :
    pxaPublish Config.params q (s.running .pxa q') =
      ((s.logged [.evt (dataEvent Config.params q.k hi lo)]).setRes .pxa (reading hi lo) true).running .pxa q' := by
  simp only [pxaPublish, bytes, dataEvent]
  cases q.k <;> rfl

/-- The state of an expired wait, after its fail-exit. -/
theorem observed_timedOut (k : Kind) (tmp : Byte) (statuses : List Byte) (gap : Half) (report : List TraceEntry) (s : State) :
    ((s.observed (statuses.getLastD tmp) (triggerTrace k tmp ++ waitTrace statuses gap)).setRes .pxa absentReading false).logged
      (.evt (.sensorException .timeout 1#8) :: report) = timedOut k tmp statuses gap report s := by
  rw [State.logged_setRes, State.observed_logged, List.append_cons, timedOut]
  rfl

namespace MeasuresKindAt

variable {q₀ : Seq} {b next : Nat} {gap : Half} (h : MeasuresKindAt q₀ b next gap)

include h

/-! ### The trigger and the wait -/

theorem goes_triggered (s : State) (tmp : Byte) :
    Goes .pxa [.ok [tmp], .ok []] s q₀ (s.observed tmp (triggerTrace q₀.k tmp)) ((q₀.latchStatus tmp).goto (b + 2)) := by
  have goes := (h.triggerRead.goes_triggerRead s tmp).trans ((h.triggerWrite (.latchStatus q₀ tmp _)).goes_triggerWrite _)
  rwa [State.observed_logged] at goes

/-- With a budget, the trigger is followed by the wait. -/
theorem goes_to_wait (budget : q₀.n ≠ 0#16) (s : State) (a : BusAnswer) (tmp : Byte) :
    Goes .pxa [.ok [tmp], .ok [], a] s q₀ (s.observed tmp (triggerTrace q₀.k tmp)) ((q₀.latchStatus tmp).goto (b + 3)) :=
  (h.goes_triggered s tmp).trans ((h.test (.latchStatus q₀ tmp _)).goes_test budget _ a)

/-- One poll of the wait that is not the last of the budget. -/
theorem goes_poll {q : Seq} (stage : q₀.Stage (b + 3) q) {status : Byte} (notReady : showsReady q₀.k status = false)
    (budget : 1 < q.n.toNat) (s : State) (a : BusAnswer) :
    Goes .pxa [.ok [status], a] s q (s.observed status [readBack .pxa 0x80#8 [status], .delay .pxa gap])
      ((q.countRead status).goto (b + 3)) := by
  have left : q.n - 1#16 ≠ 0#16 := by bv_omega
  have reads := (h.check stage).goes_check s status
  rw [stage.kind, notReady, if_neg (by decide), if_neg left] at reads
  have goes := reads.trans ((h.delay ((stage.countRead status).goto _)).goes_delay _ a)
  rwa [State.observed_logged] at goes

/-- The polls that show nothing ready, one after the other. -/
theorem goes_polls {waiting : List Byte} (notReady : ∀ x ∈ waiting, showsReady q₀.k x = false) {q : Seq}
    (stage : q₀.Stage (b + 3) q) (budget : waiting.length < q.n.toNat) (s : State) (a : BusAnswer) :
    ∃ q', q₀.Stage (b + 3) q' ∧ q'.n.toNat + waiting.length = q.n.toNat ∧
      Goes .pxa (pollAnswers waiting a) s q (s.observed (waiting.getLastD s.lastStatus) (pollTrace waiting gap)) q' := by
  induction waiting generalizing q s with
  | nil => exact ⟨q, stage, rfl, by rw [List.getLastD_nil, pollTrace, List.flatMap_nil, State.observed_nil]; rfl⟩
  | cons x rest ih =>
    rw [List.length_cons] at budget
    have poll := h.goes_poll stage (notReady x List.mem_cons_self) (by omega) s a
    have counted : ((q.countRead x).goto (b + 3)).n.toNat + 1 = q.n.toNat := by
      change (q.n - 1#16).toNat + 1 = _
      bv_omega
    obtain ⟨q', stage', left, polls⟩ := ih (fun y hy => notReady y (List.mem_cons_of_mem x hy))
      ((stage.countRead x).goto _) (by omega) (s.observed x [readBack .pxa 0x80#8 [x], .delay .pxa gap])
    refine ⟨q', stage', by rw [List.length_cons]; omega, ?_⟩
    have goes := poll.trans polls
    rw [State.observed_observed, State.observed_lastStatus] at goes
    rwa [List.getLastD_cons]

/-- The trigger, and the polls that show nothing ready: at the status read after them. -/
theorem goes_waited {waiting : List Byte} (notReady : ∀ x ∈ waiting, showsReady q₀.k x = false)
    (budget : waiting.length < q₀.n.toNat) (s : State) (a : BusAnswer) (tmp : Byte) :
    ∃ q, q₀.Stage (b + 3) q ∧ q.n.toNat + waiting.length = q₀.n.toNat ∧
      Goes .pxa ([.ok [tmp], .ok [], a] ++ pollAnswers waiting a) s q₀
        (s.observed (waiting.getLastD tmp) (triggerTrace q₀.k tmp ++ pollTrace waiting gap)) q := by
  have nonzero : q₀.n ≠ 0#16 := by bv_omega
  obtain ⟨q, stage, left, polls⟩ := h.goes_polls notReady (.latchStatus q₀ tmp _) budget
    (s.observed tmp (triggerTrace q₀.k tmp)) a
  have goes := (h.goes_to_wait nonzero s a tmp).trans polls
  rw [State.observed_observed, State.observed_lastStatus] at goes
  exact ⟨q, stage, left, goes⟩

/-! ### The measurement that succeeds -/

/-- The wait that shows the kind ready within the budget: at the read of the result. -/
theorem goes_ready {m : Measurement} (fits : m.Fits q₀.k q₀.n) (s : State) (a : BusAnswer) :
    ∃ q, q₀.Stage (b + 5) q ∧ Goes .pxa ([.ok [m.tmp], .ok [], a] ++ waitAnswers (m.waiting ++ [m.ready]) a) s q₀
      (s.observed m.ready (triggerTrace q₀.k m.tmp ++ waitTrace (m.waiting ++ [m.ready]) gap)) q := by
  obtain ⟨notReady, ready, budget⟩ := fits
  obtain ⟨q, stage, -, waited⟩ := h.goes_waited notReady budget s a m.tmp
  have reads := (h.check stage).goes_check
    (s.observed (m.waiting.getLastD m.tmp) (triggerTrace q₀.k m.tmp ++ pollTrace m.waiting gap)) m.ready
  rw [stage.kind, if_pos ready] at reads
  have goes := waited.trans reads
  rw [State.observed_observed, List.append_assoc, List.append_assoc, ← waitAnswers_concat, ← waitTrace_concat] at goes
  exact ⟨_, (stage.countRead _).goto _, goes⟩

/-- The whole measurement, to the step after its publish step. -/
theorem goes_measured {m : Measurement} (fits : m.Fits q₀.k q₀.n) (s : State) (a : BusAnswer) :
    ∃ q, q₀.Stage next q ∧ Goes .pxa (m.answers a) s q₀ (m.done q₀.k gap s) q := by
  obtain ⟨q, stage, ready⟩ := h.goes_ready fits s a
  have atPublish := (stage.withRd [m.hi, m.lo]).goto (b + 6)
  have reads := ready.trans ((h.read stage).goes_pxaResult _ m.hi m.lo)
  rw [State.observed_logged, stage.kind] at reads
  have goes := reads.trans (h.publish atPublish rfl _ a)
  rw [State.observed_logged, atPublish.kind, List.append_assoc] at goes
  exact ⟨_, atPublish.goto next, goes⟩

/-! ### The measurement that ends the operation -/

/-- No status byte within the budget shows the kind ready: the wait expires (rule R171). -/
theorem goes_expired {statuses : List Byte} (notReady : ∀ x ∈ statuses, showsReady q₀.k x = false)
    (exhausts : statuses.length = q₀.n.toNat) (s : State) (a : BusAnswer) (tmp : Byte) :
    ∃ j q, q₀.Stage j q ∧ Goes .pxa ([.ok [tmp], .ok [], a] ++ waitAnswers statuses a) s q₀
      (s.observed (statuses.getLastD tmp) (triggerTrace q₀.k tmp ++ waitTrace statuses gap)) q.expired := by
  rcases List.eq_nil_or_concat statuses with rfl | ⟨waiting, last, split⟩
  · have none_left : q₀.n = 0#16 := BitVec.eq_of_toNat_eq exhausts.symm
    have triggered := Seq.Stage.latchStatus q₀ tmp (b + 2)
    exact ⟨_, _, triggered, (h.goes_triggered s tmp).trans ((h.test triggered).goes_test_expired none_left _ a)⟩
  · rw [List.concat_eq_append] at split
    subst split
    rw [List.length_append, List.length_singleton] at exhausts
    obtain ⟨q, stage, left, waited⟩ := h.goes_waited (fun x hx => notReady x (List.mem_append_left _ hx)) (by omega) s a tmp
    have none_left : q.n - 1#16 = 0#16 := by bv_omega
    have reads := (h.check stage).goes_check
      (s.observed (waiting.getLastD tmp) (triggerTrace q₀.k tmp ++ pollTrace waiting gap)) last
    rw [stage.kind, notReady last (by simp), if_neg (by decide), if_pos none_left] at reads
    have goes := waited.trans reads
    rw [State.observed_observed, List.append_assoc, List.append_assoc, ← waitAnswers_concat, ← waitTrace_concat] at goes
    exact ⟨_, _, stage.countRead last, by rwa [List.getLastD_concat]⟩

/-- An expired wait ends the operation with `RES[1]` absent (rule R173). -/
theorem runsTo_timedOut {statuses : List Byte} (notReady : ∀ x ∈ statuses, showsReady q₀.k x = false)
    (exhausts : statuses.length = q₀.n.toNat) {s : State} (idle : s.guard.pxa = false) (a : BusAnswer) (tmp : Byte) :
    RunsTo .pxa ([.ok [tmp], .ok [], a] ++ waitAnswers statuses a ++ [a]) (s.running .pxa q₀)
      (timedOut q₀.k tmp statuses gap (responseTo q₀ .timeout absentReading) s) := by
  obtain ⟨j, q, stage, expires⟩ := h.goes_expired notReady exhausts s a tmp
  have own_slot : q.op.slot = some .pxa := stage.op ▸ h.triggerRead.own_slot
  have runs := expires.runsTo (runsTo_expired (by simpa using idle) own_slot (stage.op ▸ h.cycle) a)
  rwa [stage.responseTo_eq, observed_timedOut] at runs

/-- A transaction fails, at the trigger, in the wait or at the result (rules R170, R171, R366). -/
theorem runsTo_fail {s : State} {a : BusAnswer} {answers : List BusAnswer} {last : Byte} {entries : List TraceEntry}
    (fails : MeasurementFails q₀.k q₀.n gap a s.lastStatus answers last entries) (idle : s.guard.pxa = false) :
    RunsTo .pxa (answers ++ [a]) (s.running .pxa q₀) (s.observed last (entries ++ busErrorReport .pxa q₀)) := by
  cases fails with
  | triggerRead => exact h.triggerRead.runsTo_status_fail idle a
  | triggerWrite =>
    have stage := Seq.Stage.latchStatus q₀ last (b + 1)
    have runs := (h.triggerRead.goes_triggerRead s last).runsTo
      ((h.triggerWrite stage).runsTo_triggerWrite_fail (by simpa using idle) a)
    rwa [State.observed_logged, stage.busErrorReport_eq] at runs
  | statusRead tmp waiting notReady budget =>
    obtain ⟨q, stage, -, waited⟩ := h.goes_waited notReady budget s a tmp
    have runs := waited.runsTo ((h.check stage).runsTo_status_fail (by simpa using idle) a)
    rw [State.observed_logged, stage.busErrorReport_eq, List.append_cons _ BusAnswer.fail, List.append_cons _ (failed _ _)] at runs
    exact runs
  | resultRead m fits =>
    obtain ⟨q, stage, ready⟩ := h.goes_ready fits s a
    have runs := ready.runsTo ((h.read stage).runsTo_pxaResult_fail (by simpa using idle) a)
    rw [State.observed_logged, stage.busErrorReport_eq, stage.kind, List.append_cons _ BusAnswer.fail,
      List.append_cons _ (failed _ _)] at runs
    exact runs

end MeasuresKindAt

end Sys2Proof.Machine
end

section
/-!
`PXMEAS` (42_codec_pxa.md rules R170 to R173): one measurement, and the answer.
-/

namespace Sys2Proof.Machine

theorem pollMax_eq_budget (s : State) (k : Kind) : s.pollMax k = s.budget k := by cases k <;> rfl

theorem exec_pxmeas_started {k : Kind} {s : State} (free : Free .pxa s) :
    ∃ t, exec (.pxmeas k) s = .next t ∧
      Started .pxa 0x23#8 (.pxmeas s.pollGapMs) (fun q => q.k = k ∧ q.n = s.budget k) s t :=
  ⟨_, rfl, State.startCommand_started _ free (fun _ => rfl) fun _ => ⟨rfl, pollMax_eq_budget s k⟩⟩

theorem pxmeas_measuresKindAt {q : Seq} {gap : Half} (hop : q.op = .pxmeas gap) (hstep : q.step = .at 1) :
    MeasuresKindAt q 1 8 gap where
  cycle := by rw [hop]; rfl
  triggerRead := .of_op hop rfl hstep rfl
  triggerWrite stage := .of_op (stage.op.trans hop) rfl stage.position rfl
  test stage := .of_op (stage.op.trans hop) rfl stage.position rfl
  check stage := .of_op (stage.op.trans hop) rfl stage.position rfl
  delay stage := .of_op (stage.op.trans hop) rfl stage.position rfl
  read stage := .of_op (stage.op.trans hop) rfl stage.position rfl
  publish stage bytes s a :=
    (AtAction.of_op (stage.op.trans hop) rfl stage.position rfl).goes_internal a (pxaPublish_running bytes _ s)

theorem pxmeas_runsTo {q : Seq} {gap : Half} {s : State} {m : Measurement} (hop : q.op = .pxmeas gap)
    (hstep : q.step = .at 1) (origin : q.origin = .cmd) (opcode : q.opcode = 0x23#8) (idle : s.guard.pxa = false)
    (fits : m.Fits q.k q.n) (a : BusAnswer) :
    RunsTo .pxa (m.answers a ++ [a]) (s.running .pxa q)
      ((m.done q.k gap s).logged [answered 0x23#8 .ok (reading m.hi m.lo)]) := by
  obtain ⟨q', stage, measured⟩ := (pxmeas_measuresKindAt hop hstep).goes_measured fits s a
  have retires : AtAction .pxa q' 8 (.retire id fun s => s.res.pxa) := .of_op (stage.op.trans hop) rfl stage.position rfl
  have runs := measured.runsTo (retires.runsTo_retire a rfl idle)
  rwa [stage.responseTo_eq, responseTo_cmd origin opcode] at runs

/-- Settles O38: the wait is an induction over the status bytes that show nothing ready. -/
theorem pxmeasMeasuresWhenReady : Obligations.PxmeasMeasuresWhenReady := by
  intro k a s free
  obtain ⟨t, accepted, started⟩ := exec_pxmeas_started (k := k) free
  refine ⟨t, accepted, started, fun m fits => ?_⟩
  obtain ⟨q, hop, origin, opcode, hstep, -, ⟨rfl, budget⟩, rfl⟩ := started
  exact pxmeas_runsTo hop hstep origin opcode free.2 (budget ▸ fits) a

/-- Settles O39: the wait expires at the test before it, or at the last read of the budget. -/
theorem pxmeasTimesOut : Obligations.PxmeasTimesOut := by
  intro k tmp statuses a s free notReady exhausts
  obtain ⟨t, accepted, q, hop, origin, opcode, hstep, -, ⟨rfl, budget⟩, rfl⟩ := exec_pxmeas_started (k := k) free
  have runs := (pxmeas_measuresKindAt hop hstep).runsTo_timedOut notReady (budget ▸ exhausts) free.2 a tmp
  rw [responseTo_cmd origin opcode] at runs
  exact ⟨_, accepted, runs⟩

/-- Settles O40: by the transaction that fails. -/
theorem pxmeasFailsOnTheBus : Obligations.PxmeasFailsOnTheBus := by
  intro k a s free
  obtain ⟨t, accepted, q, hop, origin, opcode, hstep, -, ⟨rfl, budget⟩, rfl⟩ := exec_pxmeas_started (k := k) free
  have measures := pxmeas_measuresKindAt hop hstep
  refine ⟨_, accepted, fun answers last entries fails => ?_⟩
  have runs := measures.runsTo_fail (budget ▸ fails) free.2
  rwa [busErrorReport_cycle .pxa measures.cycle, responseTo_cmd origin opcode] at runs

end Sys2Proof.Machine
end

section
/-!
The PXA cycle (42_codec_pxa.md rule R174): a round for each enabled kind, ambient first.
-/

namespace Sys2Proof.Machine

/-! ### The kinds of the cycle -/

/-- The place of a kind in the cycle, as `cursor` counts it. -/
def kindPlace : Kind → Nat
  | .amb => 0
  | .prox => 1

/-- The enabled kinds at or after `cursor`, ambient first. -/
def kindsFrom (kinds : BitVec 2) (cursor : Nat) : List Kind :=
  if cursor = 0 && kinds.getLsbD 0 then .amb :: if kinds.getLsbD 1 then [.prox] else []
  else if decide (cursor ≤ 1) && kinds.getLsbD 1 then [.prox]
  else []

/-- Past the kind that is next, the others are left. -/
theorem kindsFrom_succ {kinds : BitVec 2} {cursor : Nat} {k : Kind} {rest : List Kind}
    (h : kindsFrom kinds cursor = k :: rest) : kindsFrom kinds (kindPlace k + 1) = rest := by
  unfold kindsFrom at h
  split at h
  · obtain ⟨rfl, rfl⟩ := List.cons_eq_cons.mp h
    simp [kindsFrom, kindPlace]
  · split at h
    · obtain ⟨rfl, rfl⟩ := List.cons_eq_cons.mp h
      simp [kindsFrom, kindPlace]
    · exact absurd h (List.cons_ne_nil k rest).symm

/-- The kinds at or after 0 are those that `PXA_KINDS` enables. -/
theorem kindsFrom_zero (kinds : Half) :
    kindsFrom (kinds.setWidth 2) 0 =
      (if kinds.getLsbD 0 then [Kind.amb] else []) ++ (if kinds.getLsbD 1 then [Kind.prox] else []) := by
  simp only [kindsFrom, BitVec.getLsbD_setWidth]
  cases kinds.getLsbD 0 <;> cases kinds.getLsbD 1 <;> rfl

/-- Step 1 takes the first kind left, with its budget, or goes to the end. -/
theorem pxaCycleSelect_eq (kinds : BitVec 2) (c : State) (q : Seq) (s : State) :
    pxaCycleSelect kinds c.pollMaxAmb c.pollMaxProx q s =
      match kindsFrom kinds q.cursor with
      | k :: _ => s.setSeq .pxa { s.seq.pxa with k := k, n := c.budget k, cursor := kindPlace k + 1, step := .at 2 }
      | [] => s.goto .pxa 9 := by
  unfold pxaCycleSelect kindsFrom
  split
  · rfl
  · split
    · rfl
    · rfl

/-! ### The rounds -/

/-- `q` is at step 1 of a PXA cycle with the configuration of `c`, and has these kinds left to measure. -/
structure SelectsKinds (c : State) (q : Seq) (kinds : List Kind) : Prop where
  op : q.op = .pxaCycle (c.pxaKinds.setWidth 2) c.pollMaxAmb c.pollMaxProx c.pollGapMs
  origin : q.origin = .tick
  position : q.step = .at 1
  left : kindsFrom (c.pxaKinds.setWidth 2) q.cursor = kinds

/-- `q` with the kind selected. -/
def Seq.selectingKind (q : Seq) (c : State) (k : Kind) : Seq :=
  { q with k := k, n := c.budget k, cursor := kindPlace k + 1, step := .at 2 }

theorem guard_foldl_done (m : Kind → Measurement) (kinds : List Kind) (s : State) :
    (kinds.foldl (fun s k => (m k).done k s.pollGapMs s) s).guard = s.guard := by
  induction kinds generalizing s with
  | nil => rfl
  | cons k rest ih => rw [List.foldl_cons, ih]; rfl

theorem pxaCycle_measuresKindAt {q : Seq} {kinds : BitVec 2} {pmAmb pmProx gap : Half}
    (hop : q.op = .pxaCycle kinds pmAmb pmProx gap) (hstep : q.step = .at 2) : MeasuresKindAt q 2 1 gap where
  cycle := by rw [hop]; rfl
  triggerRead := .of_op hop rfl hstep rfl
  triggerWrite stage := .of_op (stage.op.trans hop) rfl stage.position rfl
  test stage := .of_op (stage.op.trans hop) rfl stage.position rfl
  check stage := .of_op (stage.op.trans hop) rfl stage.position rfl
  delay stage := .of_op (stage.op.trans hop) rfl stage.position rfl
  read stage := .of_op (stage.op.trans hop) rfl stage.position rfl
  publish {q'} _ _ stage bytes s a := by
    have publishes : AtAction .pxa q' 8 (.internal fun s => (pxaPublish Config.params q' s).goto .pxa 1) :=
      .of_op (stage.op.trans hop) rfl stage.position rfl
    refine publishes.goes_internal a ?_
    rw [pxaPublish_running bytes, State.running_goto]
    rfl

namespace SelectsKinds

variable {c : State} {q : Seq} {k : Kind} {kinds rest : List Kind}

theorem atSelect (h : SelectsKinds c q kinds) :
    AtAction .pxa q 1 (.internal (pxaCycleSelect (c.pxaKinds.setWidth 2) c.pollMaxAmb c.pollMaxProx q)) :=
  .of_op h.op rfl h.position rfl

/-- With a kind left, step 1 selects it. -/
theorem goes_selecting (h : SelectsKinds c q (k :: rest)) (s : State) (a : BusAnswer) :
    Goes .pxa [a] s q s (q.selectingKind c k) := by
  refine h.atSelect.goes_internal a ?_
  rw [pxaCycleSelect_eq, h.left]
  rfl

theorem measuresKindAt (h : SelectsKinds c q (k :: rest)) : MeasuresKindAt (q.selectingKind c k) 2 1 c.pollGapMs :=
  pxaCycle_measuresKindAt h.op rfl

/-- One round: the kind is measured, and the cycle is back at step 1 with the others left. -/
theorem goes_round (h : SelectsKinds c q (k :: rest)) {m : Measurement} (fits : m.Fits k (c.budget k)) (s : State)
    (a : BusAnswer) :
    ∃ q', SelectsKinds c q' rest ∧ Goes .pxa (a :: m.answers a) s q (m.done k c.pollGapMs s) q' := by
  obtain ⟨q', stage, measured⟩ := h.measuresKindAt.goes_measured fits s a
  refine ⟨q', ⟨stage.op.trans h.op, stage.origin.trans h.origin, stage.position, ?_⟩, (h.goes_selecting s a).trans measured⟩
  rw [stage.cursor]
  exact kindsFrom_succ h.left

/-- The rounds of the kinds `before`, one after the other. -/
theorem goes_rounds {before : List Kind} (h : SelectsKinds c q kinds) (split : kinds = before ++ rest) {m : Kind → Measurement}
    (fit : ∀ k ∈ before, (m k).Fits k (c.budget k)) {s : State} (gap : s.pollGapMs = c.pollGapMs)
    (a : BusAnswer) :
    ∃ q', SelectsKinds c q' rest ∧ Goes .pxa (before.flatMap fun k => a :: (m k).answers a) s q
      (before.foldl (fun s k => (m k).done k s.pollGapMs s) s) q' := by
  subst split
  induction before generalizing q s with
  | nil => exact ⟨q, h, rfl⟩
  | cons k before ih =>
    obtain ⟨q₁, selects₁, round⟩ := h.goes_round (fit k List.mem_cons_self) s a
    rw [← gap] at round
    obtain ⟨q₂, selects₂, rounds⟩ := ih (fun k' hk' => fit k' (List.mem_cons_of_mem k hk'))
      (s := (m k).done k s.pollGapMs s) gap selects₁
    exact ⟨q₂, selects₂, round.trans rounds⟩

/-! ### The end of the cycle -/

/-- With no kind left, the cycle ends and answers nothing. -/
theorem runsTo_end (h : SelectsKinds c q []) {s : State} (idle : s.guard.pxa = false) (a : BusAnswer) :
    RunsTo .pxa [a, a] (s.running .pxa q) s := by
  have ends : Goes .pxa [a] s q s (q.goto 9) := by
    refine h.atSelect.goes_internal a ?_
    rw [pxaCycleSelect_eq, h.left]
    rfl
  have retires : AtAction .pxa (q.goto 9) 9 (.retire id fun _ => 0#32) := .of_op h.op rfl rfl rfl
  have runs := ends.runsTo (retires.runsTo_retire a rfl idle)
  rwa [responseTo_tick (q := q.goto 9) h.origin, State.logged_nil] at runs

theorem runsTo_timedOut (h : SelectsKinds c q (k :: rest)) {statuses : List Byte}
    (notReady : ∀ x ∈ statuses, showsReady k x = false) (exhausts : statuses.length = (c.budget k).toNat) {s : State}
    (idle : s.guard.pxa = false) (a : BusAnswer) (tmp : Byte) :
    RunsTo .pxa ([a, .ok [tmp], .ok [], a] ++ waitAnswers statuses a ++ [a]) (s.running .pxa q)
      (timedOut k tmp statuses c.pollGapMs [] s) := by
  have runs := (h.goes_selecting s a).runsTo (h.measuresKindAt.runsTo_timedOut notReady exhausts idle a tmp)
  rwa [responseTo_tick (q := q.selectingKind c k) h.origin] at runs

theorem runsTo_fail (h : SelectsKinds c q (k :: rest)) {s : State} {a : BusAnswer} {answers : List BusAnswer} {last : Byte}
    {entries : List TraceEntry} (fails : MeasurementFails k (c.budget k) c.pollGapMs a s.lastStatus answers last entries)
    (idle : s.guard.pxa = false) :
    RunsTo .pxa (a :: answers ++ [a]) (s.running .pxa q)
      (s.observed last (entries ++ [.evt (.sensorException .busError 1#8)])) := by
  have runs := (h.goes_selecting s a).runsTo (h.measuresKindAt.runsTo_fail fails idle)
  rwa [busErrorReport_cycle .pxa h.measuresKindAt.cycle, responseTo_tick (q := q.selectingKind c k) h.origin] at runs

end SelectsKinds

/-- A tick starts the cycle with `PXA_KINDS`, the budgets and the gap latched. -/
theorem tick_pxa_started {s : State} (enabled : s.timerEn.pxa = true) (idle : s.guard.pxa = false) :
    ∃ t, deliver (.tick .pxa) s = .next t ∧
      StartedByTick .pxa (.pxaCycle (s.pxaKinds.setWidth 2) s.pollMaxAmb s.pollMaxProx s.pollGapMs) s t :=
  ⟨_, rfl, tickStep_startedByTick (p := Config.params) (d := .pxa) enabled idle⟩

/-- Settles O42: by the rounds of the kinds measured, from the tick that starts the cycle; then the end, or the exception of the kind
that is next. -/
theorem pxaCycleMeasuresTheKinds : Obligations.PxaCycleMeasuresTheKinds := by
  intro a m s enabled idle
  obtain ⟨t, ticked, started⟩ := tick_pxa_started enabled idle
  refine ⟨t, ticked, started, ?_⟩
  obtain ⟨q, hop, origin, hstep, cursor, -, rfl⟩ := started
  intro before rest split fit
  have selects : SelectsKinds s q (before ++ rest) := ⟨hop, origin, hstep, by rw [cursor, kindsFrom_zero, split]⟩
  obtain ⟨q', next, rounds⟩ := selects.goes_rounds rfl fit rfl a
  have idle_after := (guard_foldl_done m before s).symm ▸ idle
  cases rest with
  | nil => exact rounds.runsTo (next.runsTo_end idle_after a)
  | cons k rest =>
    refine ⟨fun tmp statuses notReady exhausts => ?_, fun answers last entries fails => ?_⟩
    · have runs := rounds.runsTo (next.runsTo_timedOut notReady exhausts idle_after a tmp)
      rw [← List.append_assoc, ← List.append_assoc] at runs
      exact runs
    · have runs := rounds.runsTo (next.runsTo_fail fails idle_after)
      rw [← List.append_assoc] at runs
      exact runs

end Sys2Proof.Machine
end

section
/-!
The ultrasonic family (43_codec_usr.md): the two primitives, and the ranging that `USMEAS` and the USR cycle share.
-/

namespace Sys2Proof.Machine

/-! ### The trigger and the range -/

theorem AtAction.goes_rangeTrigger {q : Seq} {k : Nat} (h : AtAction .usr q k (.plain frameUsrTrigger)) (s : State) :
    Goes .usr [.ok []] s q (s.logged [wrote .usr [0x00#8, 0x51#8]]) (q.goto (k + 1)) :=
  h.goes_bus (rd := []) rfl rfl

/-- The two bytes of the range are read into the sequencer. -/
theorem AtAction.goes_range {q : Seq} {k : Nat} (h : AtAction .usr q k (.plain frameUsrResult)) (s : State) (hi lo : Byte) :
    Goes .usr [.ok [hi, lo]] s q (s.logged [readBack .usr 0x02#8 [hi, lo]]) ((q.withRd [hi, lo]).goto (k + 1)) :=
  h.goes_bus (rd := [hi, lo]) rfl rfl

/-! ### `USTRIG` (rule R193) -/

section Ustrig

variable {q : Seq} (hop : q.op = .ustrig) (hstep : q.step = .at 1) (origin : q.origin = .cmd) (opcode : q.opcode = 0x30#8)

include hop hstep

theorem ustrig_atWrite : AtAction .usr q 1 (.plain frameUsrTrigger) := .of_op hop rfl hstep rfl

include origin opcode

theorem ustrig_runsTo {s : State} (idle : s.guard.usr = false) (a : BusAnswer) :
    RunsTo .usr [.ok [], a] (s.running .usr q)
      (s.logged [wrote .usr [0x00#8, 0x51#8], answered 0x30#8 .ok 0#32]) := by
  have retires : AtAction .usr (q.goto 2) 2 (.retire id fun _ => 0#32) := .of_op hop rfl rfl rfl
  have runs := ((ustrig_atWrite hop hstep).goes_rangeTrigger s).runsTo (retires.runsTo_retire a rfl idle)
  rwa [responseTo_cmd (q := q.goto 2) origin opcode, State.logged_logged] at runs

theorem ustrig_runsTo_fail {s : State} (idle : s.guard.usr = false) (a : BusAnswer) :
    RunsTo .usr [.fail, a] (s.running .usr q)
      (s.logged [failed .usr (.write [0x00#8, 0x51#8]), answered 0x30#8 .busError 0#32]) := by
  rw [← busErrorReport_primitive .usr (by rw [hop]; rfl) origin opcode]
  exact (ustrig_atWrite hop hstep).runsTo_fail (by decide) idle a

end Ustrig

/-- Settles O44: the trigger is one write, then the answer. -/
theorem ustrigBeginsARanging : Obligations.UstrigBeginsARanging := by
  intro a s free
  have started : Started .usr 0x30#8 .ustrig (fun _ => True) s (acceptUstrig s) :=
    State.startCommand_started _ free (fun _ => rfl) fun _ => trivial
  refine ⟨_, rfl, started, ?_⟩
  obtain ⟨q, hop, origin, opcode, hstep, -, -, ht⟩ := started
  rw [ht]
  exact ⟨ustrig_runsTo hop hstep origin opcode free.2 a, ustrig_runsTo_fail hop hstep origin opcode free.2 a⟩

/-! ### `USREAD` (rule R194) -/

section Usread

variable {q : Seq} (hop : q.op = .usread) (hstep : q.step = .at 1) (origin : q.origin = .cmd) (opcode : q.opcode = 0x31#8)

include hop hstep

theorem usread_atRead : AtAction .usr q 1 (.plain frameUsrResult) := .of_op hop rfl hstep rfl

include origin opcode

theorem usread_runsTo {s : State} (idle : s.guard.usr = false) (a : BusAnswer) (hi lo : Byte) :
    RunsTo .usr [.ok [hi, lo], a] (s.running .usr q)
      ((s.setRes .usr (reading hi lo) true).logged
        [readBack .usr 0x02#8 [hi, lo], answered 0x31#8 .ok (reading hi lo)]) := by
  have retires : AtAction .usr ((q.withRd [hi, lo]).goto 2) 2
      (.retire (fun s => s.setRes .usr (reading hi lo) true) fun s => s.res.usr) := .of_op hop rfl rfl rfl
  have runs := ((usread_atRead hop hstep).goes_range s hi lo).runsTo (retires.runsTo_retire
    (s' := (s.setRes .usr (reading hi lo) true).logged [readBack .usr 0x02#8 [hi, lo]]) a rfl idle)
  rwa [responseTo_cmd (q := (q.withRd [hi, lo]).goto 2) origin opcode, State.logged_logged] at runs

theorem usread_runsTo_fail {s : State} (idle : s.guard.usr = false) (a : BusAnswer) :
    RunsTo .usr [.fail, a] (s.running .usr q)
      (s.logged [failed .usr (.writeThenRead [0x02#8] 2), answered 0x31#8 .busError 0#32]) := by
  rw [← busErrorReport_primitive .usr (by rw [hop]; rfl) origin opcode]
  exact (usread_atRead hop hstep).runsTo_fail (by decide) idle a

end Usread

/-- Settles O45: the read fills the sequencer, the retire `RES[2]`. -/
theorem usreadReadsTheRange : Obligations.UsreadReadsTheRange := by
  intro a s free
  have started : Started .usr 0x31#8 .usread (fun _ => True) s (acceptUsread s) :=
    State.startCommand_started _ free (fun _ => rfl) fun _ => trivial
  refine ⟨_, rfl, started, ?_⟩
  obtain ⟨q, hop, origin, opcode, hstep, -, -, ht⟩ := started
  rw [ht]
  exact ⟨usread_runsTo hop hstep origin opcode free.2 a, usread_runsTo_fail hop hstep origin opcode free.2 a⟩

/-! ### The ranging, as `USMEAS` and the cycle share it (rules R195, R196, R197) -/

/-- From step 1, `q` triggers, waits, reads and publishes the range, and retires with `value`. -/
structure Ranges (q : Seq) (value : State → Word) : Prop where
  cycle : q.op.isCycle = true
  trigger : AtAction .usr q 1 (.plain frameUsrTrigger)
  delay : AtAction .usr (q.goto 2) 2 (.delay 70#16 3)
  read : AtAction .usr (q.goto 3) 3 (.plain frameUsrResult)
  publish : ∀ rd, AtAction .usr ((q.withRd rd).goto 4) 4 (.internal (usrPublish (q.withRd rd)))
  retire : ∀ rd, AtAction .usr ((q.withRd rd).goto 5) 5 (.retire id value)

/-- The publish step puts the bytes read in `RES[2]` and in the event (rule R196). -/
theorem usrPublish_running (q q' : Seq) (hi lo : Byte) (s : State) :
    usrPublish (q.withRd [hi, lo]) (s.running .usr q') =
      ((s.setRes .usr (reading hi lo) true).logged [.evt (.rangeReceived (reading hi lo))]).running .usr q' := rfl

/-- The state after a ranging, before the slot is given up. -/
def ranged (hi lo : Byte) (s : State) : State :=
  (s.setRes .usr (reading hi lo) true).logged
    [wrote .usr [0x00#8, 0x51#8], .delay .usr 70#16, readBack .usr 0x02#8 [hi, lo], .evt (.rangeReceived (reading hi lo))]

namespace Ranges

variable {q : Seq} {value : State → Word} (h : Ranges q value)

include h

theorem goes_waited (s : State) (a : BusAnswer) :
    Goes .usr [.ok [], a] s q (s.logged [wrote .usr [0x00#8, 0x51#8], .delay .usr 70#16]) (q.goto 3) := by
  have goes := (h.trigger.goes_rangeTrigger s).trans (h.delay.goes_delay _ a)
  rwa [State.logged_logged] at goes

theorem goes_ranged (s : State) (a : BusAnswer) (hi lo : Byte) :
    Goes .usr [.ok [], a, .ok [hi, lo], a] s q (ranged hi lo s) ((q.withRd [hi, lo]).goto 5) := by
  have reads := (h.goes_waited s a).trans (h.read.goes_range _ hi lo)
  rw [State.logged_logged] at reads
  refine reads.trans ((h.publish [hi, lo]).goes_internal a ?_)
  rw [usrPublish_running, ← State.logged_setRes, State.logged_logged]
  rfl

theorem runsTo_ranged {s : State} (idle : s.guard.usr = false) (a : BusAnswer) (hi lo : Byte) :
    RunsTo .usr [.ok [], a, .ok [hi, lo], a, a] (s.running .usr q)
      ((ranged hi lo s).logged
        (responseTo q .ok (value ((ranged hi lo s).running .usr ((q.withRd [hi, lo]).goto 5))))) :=
  (h.goes_ranged s a hi lo).runsTo ((h.retire [hi, lo]).runsTo_retire a rfl idle)

theorem runsTo_trigger_fail {s : State} (idle : s.guard.usr = false) (a : BusAnswer) :
    RunsTo .usr [.fail, a] (s.running .usr q)
      (s.logged (failed .usr (.write [0x00#8, 0x51#8]) :: .evt (.sensorException .busError 2#8) ::
        responseTo q .busError 0#32)) := by
  have runs := h.trigger.runsTo_fail (by decide) idle a
  rwa [busErrorReport_cycle .usr h.cycle] at runs

theorem runsTo_read_fail {s : State} (idle : s.guard.usr = false) (a : BusAnswer) :
    RunsTo .usr [.ok [], a, .fail, a] (s.running .usr q)
      (s.logged (wrote .usr [0x00#8, 0x51#8] :: .delay .usr 70#16 :: failed .usr (.writeThenRead [0x02#8] 2) ::
        .evt (.sensorException .busError 2#8) :: responseTo q .busError 0#32)) := by
  have runs := (h.goes_waited s a).runsTo (h.read.runsTo_fail (s := s.logged _) (by decide) idle a)
  rwa [busErrorReport_cycle (q := q.goto 3) .usr h.cycle, State.logged_logged] at runs

end Ranges

/-! ### `USMEAS` (rule R195) -/

theorem usmeas_ranges {q : Seq} (hop : q.op = .usmeas) (hstep : q.step = .at 1) : Ranges q fun s => s.res.usr where
  cycle := by rw [hop]; rfl
  trigger := .of_op hop rfl hstep rfl
  delay := .of_op hop rfl rfl rfl
  read := .of_op hop rfl rfl rfl
  publish _ := .of_op hop rfl rfl rfl
  retire _ := .of_op hop rfl rfl rfl

/-- Settles O46: one ranging, and the answer. -/
theorem usmeasMeasuresTheRange : Obligations.UsmeasMeasuresTheRange := by
  intro a s free
  have started : Started .usr 0x32#8 .usmeas (fun _ => True) s (acceptUsmeas s) :=
    State.startCommand_started _ free (fun _ => rfl) fun _ => trivial
  refine ⟨_, rfl, started, ?_⟩
  obtain ⟨q, hop, origin, opcode, hstep, -, -, ht⟩ := started
  rw [ht]
  have ranges := usmeas_ranges hop hstep
  have writeFails := ranges.runsTo_trigger_fail free.2 a
  have readFails := ranges.runsTo_read_fail free.2 a
  rw [responseTo_cmd origin opcode] at writeFails readFails
  refine ⟨fun hi lo => ?_, writeFails, readFails⟩
  have runs := ranges.runsTo_ranged free.2 a hi lo
  rwa [responseTo_cmd origin opcode, ranged, State.logged_logged] at runs

/-! ### The USR cycle (rule R197) -/

theorem usrCycle_ranges {q : Seq} (hop : q.op = .usrCycle) (hstep : q.step = .at 1) : Ranges q fun _ => 0#32 where
  cycle := by rw [hop]; rfl
  trigger := .of_op hop rfl hstep rfl
  delay := .of_op hop rfl rfl rfl
  read := .of_op hop rfl rfl rfl
  publish _ := .of_op hop rfl rfl rfl
  retire _ := .of_op hop rfl rfl rfl

/-- Settles O47: the ranging of `USMEAS`, which answers nothing since a tick started it. -/
theorem usrCycleMeasuresTheRange : Obligations.UsrCycleMeasuresTheRange := by
  intro a s enabled idle
  have started := tickStep_startedByTick (p := Config.params) (d := .usr) enabled idle
  refine ⟨_, rfl, started, ?_⟩
  obtain ⟨q, hop, origin, hstep, -, -, ht⟩ := started
  rw [ht]
  have ranges := usrCycle_ranges hop hstep
  have writeFails := ranges.runsTo_trigger_fail idle a
  have readFails := ranges.runsTo_read_fail idle a
  rw [responseTo_tick origin] at writeFails readFails
  refine ⟨fun hi lo => ?_, writeFails, readFails⟩
  have runs := ranges.runsTo_ranged idle a hi lo
  rwa [responseTo_tick origin, State.logged_nil] at runs

end Sys2Proof.Machine
end

section
/-!
The checksum family (44_codec_crc.md): `CRCV` in its one step, the shift register as a polynomial division, and the syndrome, whose
linearity tells which changes of a valid pair are caught.
-/

namespace Sys2Proof.Machine

/-! ### The comparison (rule R213) -/

/-- What the supplied byte differs from the checksum by, when it is valid. -/
def crcMask (quirk : Bool) : Byte := if quirk then crcQuirk else 0x00#8

theorem crcValid_iff (data : Half) (crc : Byte) (quirk : Bool) :
    crcValid data crc quirk = true ↔ crc = crc8 data ^^^ crcMask quirk := by
  cases quirk with
  | false =>
    rw [crcValid, crcMask, beq_iff_eq, if_neg Bool.false_ne_true, if_neg Bool.false_ne_true, BitVec.xor_zero, eq_comm]
  | true =>
    rw [crcValid, crcMask, beq_iff_eq, if_pos rfl, if_pos rfl, ← BitVec.xor_left_inj crcQuirk, BitVec.xor_assoc, BitVec.xor_self,
      BitVec.xor_zero, eq_comm]

/-- Settles O50: each variant's byte is the checksum under that variant's mask. -/
theorem oneValidChecksum : Obligations.OneValidChecksum := by
  intro data crc
  have plain := crcValid_iff data crc false
  rw [crcMask, if_neg Bool.false_ne_true, BitVec.xor_zero] at plain
  exact ⟨plain, crcValid_iff data crc true⟩

/-! ### `CRCV` (rule R214) -/

/-- Settles O48, by the three ends of the command: a match, a strict mismatch, a mismatch that is only answered. -/
theorem crcvComparesTheChecksum : Obligations.CrcvComparesTheChecksum := by
  intro data crc quirk strict s ok
  have runs : exec (.crcv data crc quirk strict) s = execCrcv data crc quirk strict s := rfl
  have compares : crcValid data crc quirk = ok := rfl
  rw [runs, execCrcv, compares]
  clear_value ok
  cases ok with
  | true => rfl
  | false =>
    cases strict with
    | true => exact congrArg _ (State.logged_logged (s.setCrcOk false) [_] [_])
    | false => rfl

/-! ### The long division (rules R211, R212) -/

/-- The register over the bits of the message that step `i` of the division is about to bring down: bit 7 at bit `23 - i`. -/
def inPlace (i : Nat) (reg : Byte) : BitVec 24 := reg.setWidth 24 <<< (16 - i)

theorem inPlace_xor (i : Nat) (a b : Byte) : inPlace i (a ^^^ b) = inPlace i a ^^^ inPlace i b := by
  rw [inPlace, BitVec.setWidth_xor, BitVec.shiftLeft_xor_distrib, inPlace, inPlace]

theorem inPlace_16 (reg : Byte) : inPlace 16 reg = reg.setWidth 24 := BitVec.shiftLeft_zero _

theorem inPlace_getLsbD (i : Nat) {j : Nat} (hj : j < 24) (reg : Byte) :
    (inPlace i reg).getLsbD j = (!decide (j < 16 - i) && reg.getLsbD (j - (16 - i))) := by
  rw [inPlace, BitVec.getLsbD_shiftLeft, BitVec.getLsbD_setWidth, decide_eq_true hj, Bool.true_and,
    decide_eq_true (show j - (16 - i) < 24 by omega), Bool.true_and]

theorem inPlace_getLsbD_inside (i : Nat) {k : Nat} (hk : k < 8) (reg : Byte) :
    (inPlace i reg).getLsbD (16 - i + k) = reg.getLsbD k := by
  rw [inPlace_getLsbD i (by omega), decide_eq_false (by omega), Nat.add_sub_cancel_left, Bool.not_false, Bool.true_and]

theorem inPlace_getLsbD_below {i j : Nat} (hj : j < 16 - i) (reg : Byte) : (inPlace i reg).getLsbD j = false := by
  rw [inPlace_getLsbD i (by omega), decide_eq_true hj, Bool.not_true, Bool.false_and]

theorem inPlace_getLsbD_above {i j : Nat} (hi : i ≤ 16) (hj : 24 - i ≤ j) (reg : Byte) : (inPlace i reg).getLsbD j = false := by
  obtain inside | outside : j < 24 ∨ 24 ≤ j := by omega
  · rw [inPlace_getLsbD i inside, BitVec.getLsbD_of_ge reg _ (by omega), Bool.and_false]
  · exact BitVec.getLsbD_of_ge _ _ outside

theorem hi8_getLsbD {k : Nat} (hk : k < 8) (v : Half) : (hi8 v).getLsbD k = v.getLsbD (8 + k) := by
  rw [hi8, BitVec.getLsbD_setWidth, BitVec.getLsbD_ushiftRight, decide_eq_true hk, Bool.true_and]

theorem lo8_getLsbD {k : Nat} (hk : k < 8) (v : Half) : (lo8 v).getLsbD k = v.getLsbD k := by
  rw [lo8, BitVec.getLsbD_setWidth, decide_eq_true hk, Bool.true_and]

/-- The message of the division is the two data bytes and the checksum, each in its place. -/
theorem append_eq_inPlace (data : Half) (c : Byte) :
    data ++ c = inPlace 0 (hi8 data) ^^^ (inPlace 8 (lo8 data) ^^^ inPlace 16 c) := by
  apply BitVec.eq_of_getLsbD_eq
  intro j hj
  have place : j = 16 - 16 + j % 8 ∨ j = 16 - 8 + j % 8 ∨ j = 16 - 0 + j % 8 := by omega
  have hk : j % 8 < 8 := Nat.mod_lt _ (by omega)
  generalize j % 8 = k at place hk
  rw [BitVec.getLsbD_append, BitVec.getLsbD_xor, BitVec.getLsbD_xor]
  obtain rfl | rfl | rfl := place
  · rw [if_pos (by omega), inPlace_getLsbD_below (by omega), inPlace_getLsbD_below (by omega), inPlace_getLsbD_inside _ hk,
      Bool.false_xor, Bool.false_xor, Nat.sub_self, Nat.zero_add]
  · rw [if_neg (by omega), inPlace_getLsbD_below (by omega), inPlace_getLsbD_inside _ hk, inPlace_getLsbD_above le_rfl (by omega),
      Bool.false_xor, Bool.xor_false, lo8_getLsbD hk, Nat.add_sub_cancel_left]
  · rw [if_neg (by omega), inPlace_getLsbD_inside _ hk, inPlace_getLsbD_above (by omega) (by omega),
      inPlace_getLsbD_above le_rfl (by omega), Bool.xor_false, Bool.xor_false, hi8_getLsbD hk,
      show 16 - 0 + k - 8 = 8 + k by omega]

/-- A register shift subtracts the whole polynomial, leading term included, when a 1 leaves the register. -/
theorem setWidth_crcShift (reg : Byte) :
    (crcShift reg).setWidth 24 =
      if reg.getLsbD 7 then reg.setWidth 24 <<< 1 ^^^ crcPoly.setWidth 24 else reg.setWidth 24 <<< 1 := by
  revert reg
  decide +kernel

theorem crcDivisor_ushiftRight {i : Nat} (hi : i < 16) : crcDivisor >>> i = crcPoly.setWidth 24 <<< (15 - i) := by
  decide +revert

/-- One step of the division is one shift of the register, while the message below has no bit under the divisor's leading term. -/
theorem divisionStep_inPlace {i : Nat} (hi : i < 16) {low : BitVec 24} (below : low.getLsbD (23 - i) = false) (reg : Byte) :
    divisionStep (inPlace i reg ^^^ low) i = inPlace (i + 1) (crcShift reg) ^^^ low := by
  have top : (inPlace i reg ^^^ low).getLsbD (23 - i) = reg.getLsbD 7 := by
    rw [BitVec.getLsbD_xor, below, Bool.xor_false, show 23 - i = 16 - i + 7 by omega, inPlace_getLsbD_inside i (by omega)]
  have shifted : inPlace i reg = (reg.setWidth 24 <<< 1) <<< (15 - i) := by
    rw [inPlace, ← BitVec.shiftLeft_add, show 16 - i = 1 + (15 - i) by omega]
  have next : inPlace (i + 1) (crcShift reg) = (crcShift reg).setWidth 24 <<< (15 - i) := by
    rw [inPlace, Nat.add_comm, Nat.sub_add_eq]
  rw [divisionStep, top, crcDivisor_ushiftRight hi, next, setWidth_crcShift, shifted]
  split
  · rw [BitVec.shiftLeft_xor_distrib, BitVec.xor_assoc, BitVec.xor_assoc, BitVec.xor_comm low]
  · rfl

/-- The steps for one byte of the message are as many shifts of the register, over the rest of the message. -/
theorem foldl_divisionStep_inPlace {n k : Nat} (hn : n ≤ 8) (hk : k ≤ 8) {low : BitVec 24}
    (below : ∀ j, 16 - n ≤ j → low.getLsbD j = false) (reg : Byte) :
    (List.range' n k).foldl divisionStep (inPlace n reg ^^^ low) = inPlace (n + k) (crcShift^[k] reg) ^^^ low := by
  induction k with
  | zero => rfl
  | succ k ih =>
    rw [List.range'_1_concat, List.foldl_append, ih (by omega), Function.iterate_succ_apply']
    exact divisionStep_inPlace (by omega) (below _ (by omega)) _

theorem crcByte_zero (byte : Byte) : crcByte 0x00#8 byte = crcShift^[8] byte := by rw [crcByte, BitVec.zero_xor]

theorem crc8_eq_iterate (data : Half) : crc8 data = crcShift^[8] (crcShift^[8] (hi8 data) ^^^ lo8 data) := by
  rw [crc8, crcByte_zero, crcByte]

/-- What the division leaves is the checksum compared with the byte supplied. -/
theorem foldl_divisionStep_append (data : Half) (c : Byte) :
    (List.range 16).foldl divisionStep (data ++ c) = (crc8 data ^^^ c).setWidth 24 := by
  have bytes : List.range 16 = List.range' 0 8 ++ List.range' 8 8 := rfl
  have high := foldl_divisionStep_inPlace (n := 0) (k := 8) (by omega) le_rfl (reg := hi8 data)
    (low := inPlace 8 (lo8 data) ^^^ inPlace 16 c) fun j hj => by
      rw [BitVec.getLsbD_xor, inPlace_getLsbD_above (by omega) (by omega), inPlace_getLsbD_above (by omega) (by omega),
        Bool.xor_false]
  have low := foldl_divisionStep_inPlace (n := 8) (k := 8) le_rfl le_rfl (reg := crcShift^[8] (hi8 data) ^^^ lo8 data)
    (low := inPlace 16 c) fun j hj => inPlace_getLsbD_above le_rfl (by omega) c
  rw [bytes, List.foldl_append, append_eq_inPlace, high, ← BitVec.xor_assoc, ← inPlace_xor, low, ← inPlace_xor, inPlace_16,
    crc8_eq_iterate]

theorem setWidth_byte_eq_zero_iff (b : Byte) : b.setWidth 24 = 0#24 ↔ b = 0#8 := by
  rw [← BitVec.toNat_inj, ← BitVec.toNat_inj, BitVec.toNat_setWidth_of_le (by omega)]
  rfl

/-- Settles O49: the remainder is `crc8 data ^^^ c`. -/
theorem checksumIsDivision : Obligations.ChecksumIsDivision := by
  intro data c
  rw [crcDivides, foldl_divisionStep_append, Bool.eq_iff_iff, beq_iff_eq, beq_iff_eq, setWidth_byte_eq_zero_iff,
    BitVec.xor_eq_zero_iff]

/-! ### Linearity -/

theorem crcShift_xor (a b : Byte) : crcShift (a ^^^ b) = crcShift a ^^^ crcShift b := by
  rw [crcShift, BitVec.shiftLeft_xor_distrib, BitVec.getLsbD_xor, crcShift, crcShift]
  cases a.getLsbD 7 <;> cases b.getLsbD 7
  · rfl
  · exact BitVec.xor_assoc _ _ _
  · simp only [Bool.xor_false, if_true, Bool.false_eq_true, if_false]
    ac_rfl
  · have cancel (x y : Byte) : x ^^^ crcPolyLow ^^^ (y ^^^ crcPolyLow) = x ^^^ y ^^^ (crcPolyLow ^^^ crcPolyLow) := by ac_rfl
    change a <<< 1 ^^^ b <<< 1 = a <<< 1 ^^^ crcPolyLow ^^^ (b <<< 1 ^^^ crcPolyLow)
    rw [cancel, BitVec.xor_self, BitVec.xor_zero]

theorem iterate_crcShift_xor (n : Nat) (a b : Byte) : crcShift^[n] (a ^^^ b) = crcShift^[n] a ^^^ crcShift^[n] b := by
  induction n with
  | zero => rfl
  | succ n ih => simp only [Function.iterate_succ_apply', ih, crcShift_xor]

theorem crc8_xor (a b : Half) : crc8 (a ^^^ b) = crc8 a ^^^ crc8 b := by
  have hi : hi8 (a ^^^ b) = hi8 a ^^^ hi8 b := by rw [hi8, BitVec.ushiftRight_xor_distrib, BitVec.setWidth_xor, hi8, hi8]
  have lo : lo8 (a ^^^ b) = lo8 a ^^^ lo8 b := BitVec.setWidth_xor
  simp only [crc8_eq_iterate, hi, lo, iterate_crcShift_xor]
  ac_rfl

/-! ### Flipped bits (rule R215) -/

/-- What flipping `bits` of a pair of data and checksum adds to the difference that rule R213 compares. -/
def syndrome (bits : BitVec 24) : Byte := crc8 (bits.extractLsb' 8 16) ^^^ bits.extractLsb' 0 8

theorem syndrome_xor (a b : BitVec 24) : syndrome (a ^^^ b) = syndrome a ^^^ syndrome b := by
  simp only [syndrome, BitVec.extractLsb'_xor, crc8_xor]
  ac_rfl

/-- A valid pair stays valid exactly when the syndrome of the flipped bits is zero. -/
theorem crcValid_flip_iff {data : Half} {crc : Byte} {quirk : Bool} (valid : crcValid data crc quirk = true) (bits : BitVec 24) :
    crcValid (data ^^^ bits.extractLsb' 8 16) (crc ^^^ bits.extractLsb' 0 8) quirk = true ↔ syndrome bits = 0#8 := by
  rw [crcValid_iff] at valid ⊢
  have regroup : crc8 data ^^^ crc8 (bits.extractLsb' 8 16) ^^^ crcMask quirk =
      crc8 data ^^^ crcMask quirk ^^^ crc8 (bits.extractLsb' 8 16) := by ac_rfl
  rw [valid, crc8_xor, regroup, BitVec.xor_right_inj, syndrome, BitVec.xor_eq_zero_iff, eq_comm]

/-- One flipped bit has a syndrome: no power of x below 24 is divisible by the polynomial. -/
theorem syndrome_bit_ne_zero : ∀ i : Fin 24, syndrome (1#24 <<< i.val) ≠ 0#8 := by decide +kernel

/-- Different bits have different syndromes: no two powers of x below 24 are congruent modulo the polynomial. -/
theorem syndrome_bit_injective : Function.Injective fun i : Fin 24 => syndrome (1#24 <<< i.val) := by decide +kernel

/-- Settles O51: the syndrome of two bits is the difference of theirs, which are nonzero and different. -/
theorem flippedBitsAreCaught : Obligations.FlippedBitsAreCaught := by
  intro data crc quirk i j valid flips
  have caught {bits : BitVec 24} (h : syndrome bits ≠ 0#8) : flips bits = false :=
    Bool.eq_false_of_not_eq_true (mt (crcValid_flip_iff valid bits).mp h)
  refine ⟨caught (syndrome_bit_ne_zero i), fun differ => caught ?_⟩
  rw [syndrome_xor, Ne, BitVec.xor_eq_zero_iff]
  exact fun same => differ (syndrome_bit_injective same)

end Sys2Proof.Machine
end

section
/-!
The steps of a PWM program (45_pwm.md rules R231, R236, R241, R260): until it retires it writes, reads MODE1 or delays, one entry of
the trace each; a transaction that fails is counted and ends the operation. The run of a program, and its end at each transaction,
are one induction over those steps.
-/

namespace Sys2Proof.Machine

/-! ### The end by a `BusError` (rule R231; 60_exceptions.md rule R366) -/

theorem State.countPwmError_eq (s : State) : s.countPwmError = { s with pwmErrcnt := raisedByOne s.pwmErrcnt } := by
  rw [State.countPwmError, saturatingSucc_eq]

/-- The fail-exit of slot 3 counts the failure, gives up the slot and answers. -/
theorem State.running_failExit_pwm {s : State} (idle : s.guard.pwm = false) (q : Seq) :
    (s.running .pwm q).failExit .pwm .busError .busError 0#32 =
      (s.countPwmError.logged (responseTo q .busError 0#32)).setSeq .pwm { q with op := .idle, exc := .none } := by
  have report : ((s.running .pwm q).markAbsent .pwm .busError).reportException .pwm .busError =
      s.countPwmError.running .pwm q := rfl
  rw [State.failExit, report, State.running_release (d := .pwm) (s := s.countPwmError) idle, State.answer_eq_logged,
    State.running_seq_get]
  simp [State.clearException, State.setSeq, State.logged]

/-- A `BusError` pending, the fail-exit next. -/
def Seq.failing (q : Seq) : Seq := { q with exc := .busError, step := .failExit }

theorem AtAction.goes_failing {d : Slot} {q : Seq} {k : Nat} {op : BusOp} {after : List Byte → State → State}
    (h : AtAction d q k (.bus op after)) (s : State) : Goes d [.fail] s q (s.logged [failed d op]) q.failing :=
  h.goes (by simp [State.perform_bus_fail after (show answerBytes op.asked .fail = none from rfl), failed, Seq.failing])

theorem deliver_micro_failing {d : Slot} {q : Seq} (own_slot : q.op.slot = some d) (s : State) (a : BusAnswer) :
    deliver (.micro d a) (s.running d q.failing) = .next ((s.running d q.failing).failExit d .busError .busError 0#32) :=
  microStep_failExit_busError a (by simp) (by simpa [Seq.failing] using own_slot) (by simp [Seq.failing]) (by simp [Seq.failing])

/-- A transaction of slot 3 that fails ends the operation at the next micro-step. -/
theorem AtAction.runsTo_pwm_fail {q : Seq} {k : Nat} {op : BusOp} {after : List Byte → State → State}
    (h : AtAction .pwm q k (.bus op after)) {s : State} (idle : s.guard.pwm = false) (a : BusAnswer) :
    RunsTo .pwm [.fail, a] (s.running .pwm q) (s.countPwmError.logged (failed .pwm op :: responseTo q .busError 0#32)) := by
  refine (h.goes_failing s).runsTo (bs := [a]) ⟨_, deliverAll_cons [] (deliver_micro_failing h.own_slot _ a),
    { q.failing with op := .idle, exc := .none }, rfl, ?_⟩
  rw [State.running_failExit_pwm (s := s.logged [failed .pwm op]) idle]
  exact congrArg (State.setSeq · .pwm _) (State.logged_logged s.countPwmError [_] _)

/-! ### The steps -/

/-- The bus answer takes slot 3 from `q` to `q'` in one micro-step, which appends the entry and changes nothing else. -/
inductive PwmStep : Seq → BusAnswer → TraceEntry → Seq → Prop
  | write {q : Seq} {k : Nat} {bytes : List Byte} (h : AtAction .pwm q k (.plain (.write bytes))) :
    PwmStep q (.ok []) (wrote .pwm bytes) (q.goto (k + 1))
  | readMode {q : Seq} {k : Nat} (b : Byte) (h : AtAction .pwm q k (.bus framePwmMode modeToTmp)) :
    PwmStep q (.ok [b]) (readBack .pwm 0x00#8 [b]) ((q.latchStatus b).goto (k + 1))
  | delay {q : Seq} {k next : Nat} {ms : Half} (a : BusAnswer) (h : AtAction .pwm q k (.delay ms next)) :
    PwmStep q a (.delay .pwm ms) (q.goto next)

namespace PwmStep

variable {q q' : Seq} {a : BusAnswer} {e : TraceEntry} (h : PwmStep q a e q')

include h

theorem goes (s : State) : Goes .pwm [a] s q (s.logged [e]) q' := by
  cases h with
  | write h => exact h.goes_bus (rd := []) rfl rfl
  | readMode b h => exact h.goes_bus (rd := [b]) rfl rfl
  | delay a h => exact h.goes_delay s a

theorem responseTo_eq (status : Status) (value : Word) : responseTo q' status value = responseTo q status value := by
  cases h <;> rfl

/-- The same micro-step with the bus answering `Fail`, where it makes a transaction. -/
theorem runsTo_fail (transacts : e.isBusOf .pwm = true) {s : State} (idle : s.guard.pwm = false) (b : BusAnswer) :
    RunsTo .pwm [.fail, b] (s.running .pwm q) (s.countPwmError.logged (e.asFailed :: responseTo q .busError 0#32)) := by
  cases h with
  | write h => exact h.runsTo_pwm_fail idle b
  | readMode _ h => exact h.runsTo_pwm_fail idle b
  | delay => cases transacts

end PwmStep

/-! ### The programs -/

/-- From `q` these answers take slot 3 through steps that append these entries, to a retire with `value`. -/
inductive PwmProgram (value : Word) : Seq → List BusAnswer → List TraceEntry → Prop
  | retire {q : Seq} {k : Nat} (h : AtAction .pwm q k (.retire id fun _ => value)) : PwmProgram value q [] []
  | step {q q' : Seq} {a : BusAnswer} {e : TraceEntry} {as : List BusAnswer} {es : List TraceEntry}
    (first : PwmStep q a e q') (rest : PwmProgram value q' as es) : PwmProgram value q (a :: as) (e :: es)

namespace PwmProgram

variable {value : Word} {q : Seq} {as : List BusAnswer} {es : List TraceEntry} (h : PwmProgram value q as es)

include h

theorem runsTo {s : State} (idle : s.guard.pwm = false) (b : BusAnswer) :
    RunsTo .pwm (as ++ [b]) (s.running .pwm q) (s.logged (es ++ responseTo q .ok value)) := by
  induction h generalizing s with
  | retire at_retire => exact at_retire.runsTo_retire b rfl idle
  | @step q q' a e as es first rest ih =>
    have runs := (first.goes s).runsTo (ih (s := s.logged [e]) idle)
    rwa [State.logged_logged, first.responseTo_eq] at runs

/-- The program ends at its transaction in place `j`, when the bus answers that one `Fail`. -/
theorem runsTo_fail {j : Nat} (transacts : es[j]?.any (·.isBusOf .pwm) = true) {s : State} (idle : s.guard.pwm = false)
    (b : BusAnswer) :
    RunsTo .pwm (as.take j ++ [.fail, b]) (s.running .pwm q)
      (s.countPwmError.logged
        (es.take j ++ ((es.drop j).take 1).map TraceEntry.asFailed ++ responseTo q .busError 0#32)) := by
  induction h generalizing s j with
  | retire => cases transacts
  | @step q q' a e as es first rest ih =>
    cases j with
    | zero => exact first.runsTo_fail transacts idle b
    | succ j =>
      have runs := (first.goes s).runsTo (ih transacts (s := s.logged [e]) idle)
      rw [first.responseTo_eq] at runs
      have regroup := State.logged_logged s.countPwmError [e]
        (es.take j ++ ((es.drop j).take 1).map TraceEntry.asFailed ++ responseTo q .busError 0#32)
      exact regroup ▸ runs

end PwmProgram

end Sys2Proof.Machine
end

section
/-!
PWMENC (45_pwm.md): the mode operations, the channel writes and `SETFREQ` as programs of steps, the prescale over the legal
frequencies, and the bits of the bytes written to MODE1.
-/

namespace Sys2Proof.Machine

/-! ### The bytes of MODE1 (rule R259) -/

/-- The constraint of 00_scope.md rule R9 on the masks. -/
theorem Params.legal_masks_disjoint (p : Params) : p.legal.mode1Sleep &&& p.legal.mode1Restart = 0#8 := by
  cases legal : p.masksLegal with
  | true =>
    have disjoint : p.mode1Sleep &&& p.mode1Restart = 0#8 := beq_iff_eq.mp (Bool.and_eq_true_iff.mp legal).2
    simpa [Params.legal, legal] using disjoint
  | false => simp [Params.legal, legal]

theorem restartByte_eq_sleepByte (slp rst tmp : Byte) : restartByte slp rst tmp = sleepByte rst slp tmp := rfl

/-- Clearing a mask does not change what is outside it. -/
theorem not_and_not_or (x y : Byte) : ~~~x &&& ~~~(x ||| y) = ~~~(x ||| y) := by
  rw [BitVec.not_or, ← BitVec.and_assoc, BitVec.and_self]

section Masks

variable (slp rst tmp : Byte)

theorem sleepByte_and_sleep : sleepByte slp rst tmp &&& slp = slp := by
  ext i
  simpa [sleepByte] using fun set => .inr set

theorem sleepByte_and_restart (disjoint : slp &&& rst = 0#8) : sleepByte slp rst tmp &&& rst = 0#8 := by
  rw [sleepByte, BitVec.and_or_distrib_right, BitVec.and_assoc, BitVec.not_and_self, disjoint]
  simp

theorem wakeByte_and_sleep : wakeByte slp rst tmp &&& slp = 0#8 := by
  rw [wakeByte, BitVec.and_assoc, BitVec.and_comm _ slp, ← BitVec.and_assoc, BitVec.and_assoc tmp, BitVec.not_and_self]
  simp

theorem wakeByte_and_restart : wakeByte slp rst tmp &&& rst = 0#8 := by
  rw [wakeByte, BitVec.and_assoc, BitVec.not_and_self]
  simp

/-- Sleep writes back the bits outside the masks. -/
theorem sleepByte_outside : sleepByte slp rst tmp &&& ~~~(slp ||| rst) = tmp &&& ~~~(slp ||| rst) := by
  have cleared : ~~~rst &&& ~~~(slp ||| rst) = ~~~(slp ||| rst) := BitVec.or_comm rst slp ▸ not_and_not_or rst slp
  have set_inside : slp &&& ~~~(slp ||| rst) = 0#8 := by
    rw [BitVec.not_or, ← BitVec.and_assoc, BitVec.and_not_self]
    exact BitVec.zero_and
  rw [sleepByte, BitVec.and_or_distrib_right, BitVec.and_assoc, cleared, set_inside, BitVec.or_zero]

/-- So does wake. -/
theorem wakeByte_outside : wakeByte slp rst tmp &&& ~~~(slp ||| rst) = tmp &&& ~~~(slp ||| rst) := by
  rw [wakeByte, BitVec.not_or, BitVec.and_assoc tmp, BitVec.and_assoc, BitVec.and_self]

end Masks

/-- Settles O58: the masks are disjoint, and restart is sleep with the masks exchanged. -/
theorem mode1MasksExclude : Obligations.Mode1MasksExclude := by
  intro tmp slp rst
  have disjoint : slp &&& rst = 0#8 := Params.legal_masks_disjoint Config.given
  refine ⟨⟨rfl, rfl, rfl⟩, ⟨sleepByte_and_sleep slp rst tmp, sleepByte_and_restart slp rst tmp disjoint⟩,
    ⟨wakeByte_and_sleep slp rst tmp, wakeByte_and_restart slp rst tmp⟩,
    ⟨sleepByte_and_restart rst slp tmp (BitVec.and_comm slp rst ▸ disjoint), sleepByte_and_sleep rst slp tmp⟩, ?_⟩
  have restartByte_outside : restartByte slp rst tmp &&& ~~~(slp ||| rst) = tmp &&& ~~~(slp ||| rst) := by
    rw [restartByte_eq_sleepByte, BitVec.or_comm slp rst, sleepByte_outside]
  simp only [List.forall_mem_cons, sleepByte_outside, wakeByte_outside, restartByte_outside, List.not_mem_nil,
    false_imp_iff, implies_true, and_self]

/-! ### The prescale (rules R232, R233) -/

/-- The rounding of rule R232, with the frequency in one place only. -/
theorem prescale_eq_round {hz : Nat} (pos : 0 < hz) : prescale hz = (25000000 / hz + 2048) / 4096 - 1 := by
  rw [prescale_eq, Nat.mul_comm 4096, ← Nat.div_div_eq_div_mul, Nat.add_mul_div_right _ _ pos]

theorem prescale_antitone {f g : Nat} (pos : 0 < f) (h : f ≤ g) : prescale g ≤ prescale f := by
  rw [prescale_eq_round pos, prescale_eq_round (pos.trans_le h)]
  have := Nat.div_le_div_left (a := 25000000) h pos
  omega

/-- The bounds are the values at the ends of the range. -/
theorem prescale_bounds {hz : Nat} (low : 24 ≤ hz) (high : hz ≤ 1526) : 3 ≤ prescale hz ∧ prescale hz ≤ 253 :=
  ⟨prescale_antitone (by omega) high, prescale_antitone (by omega) low⟩

theorem exec_setfreq_rangeError {hz : Nat} (illegal : hz < 24 ∨ 1526 < hz) (s : State) :
    exec (.setfreq hz) s = .next (s.logged [answered 0x50#8 .rangeError 0#32]) := by
  have refused : ¬ hzLegal hz = true := by rw [hzLegal_iff]; omega
  simp only [exec, execSetfreq, acceptSetfreq, if_neg refused]
  rfl

/-- Settles O53: the prescale rounds a quotient that falls as the frequency rises. -/
theorem prescaleOverTheRange : Obligations.PrescaleOverTheRange :=
  ⟨fun _ s illegal _ => exec_setfreq_rangeError illegal s, fun hz low high => ⟨prescale_eq hz, prescale_bounds low high⟩,
    fun _ _ low h _ => prescale_antitone (by omega) h, by decide⟩

/-! ### The mode operations (rules R258 to R262) -/

/-- From step `j`, `q` reads MODE1, writes it with `byte` of what it read, and waits the settle delay. -/
structure ChangesMode (q : Seq) (j : Nat) (byte : Byte → Byte) : Prop where
  read : AtAction .pwm q j (.bus framePwmMode modeToTmp)
  write : ∀ tmp, AtAction .pwm ((q.latchStatus tmp).goto (j + 1)) (j + 1) (.plain (framePwmModeWrite (byte tmp)))
  settle : ∀ tmp, AtAction .pwm ((q.latchStatus tmp).goto (j + 2)) (j + 2) (.delay 5#16 (j + 3))

/-- A change of mode, and the rest of its program. -/
theorem ChangesMode.pwmProgram {q : Seq} {j : Nat} {byte : Byte → Byte} (h : ChangesMode q j byte) {value : Word}
    {as : List BusAnswer} {es : List TraceEntry} (tmp : Byte) (a : BusAnswer)
    (rest : PwmProgram value ((q.latchStatus tmp).goto (j + 3)) as es) :
    PwmProgram value q (.ok [tmp] :: .ok [] :: a :: as)
      (readBack .pwm 0x00#8 [tmp] :: wrote .pwm [0x00#8, byte tmp] :: .delay .pwm 5#16 :: es) :=
  .step (.readMode tmp h.read) (.step (.write (h.write tmp)) (.step (.delay a (h.settle tmp)) rest))

theorem modeProgram_pwmProgram {q : Seq} {byte : Byte → Byte} (own_slot : q.op.slot = some .pwm) (hstep : q.step = .at 1)
    (program : ∀ q' k, q'.op = q.op → programOf Config.params q' k = modeProgram byte q' k) (tmp : Byte) (a : BusAnswer) :
    PwmProgram 0#32 q [.ok [tmp], .ok [], a]
      [readBack .pwm 0x00#8 [tmp], wrote .pwm [0x00#8, byte tmp], .delay .pwm 5#16] := by
  have changes : ChangesMode q 1 byte :=
    ⟨⟨own_slot, hstep, program _ _ rfl⟩, fun _ => ⟨own_slot, rfl, program _ _ rfl⟩, fun _ => ⟨own_slot, rfl, program _ _ rfl⟩⟩
  exact changes.pwmProgram tmp a (.retire (k := 4) ⟨own_slot, rfl, program _ _ rfl⟩)

theorem Started.writesMode {opcode : Byte} {op : Op} {byte : Byte → Byte} {s t : State}
    (started : Started .pwm opcode op (fun _ => True) s t) (free : Free .pwm s) (own_slot : op.slot = some .pwm)
    (program : ∀ q k, q.op = op → programOf Config.params q k = modeProgram byte q k) : WritesMode opcode byte s t := by
  obtain ⟨q, rfl, origin, rfl, hstep, -, -, rfl⟩ := started
  intro tmp a
  have steps := modeProgram_pwmProgram own_slot hstep program tmp a
  have ends := steps.runsTo free.2 a
  have readFails := steps.runsTo_fail (j := 0) rfl free.2 a
  have writeFails := steps.runsTo_fail (j := 1) rfl free.2 a
  rw [responseTo_cmd origin rfl] at ends readFails writeFails
  rw [State.countPwmError_eq] at readFails writeFails
  exact ⟨ends, readFails, writeFails⟩

/-- Settles O57: one program, run with the three bytes of rule R259. -/
theorem modeOperationsWriteMode1 : Obligations.ModeOperationsWriteMode1 := by
  intro s free slp rst
  have sleeps : Started .pwm 0x55#8 (.sleep slp rst) (fun _ => True) s (acceptSleep Config.params s) :=
    State.startCommand_started _ free (fun _ => rfl) fun _ => trivial
  have wakes : Started .pwm 0x56#8 (.wake slp rst) (fun _ => True) s (acceptWake Config.params s) :=
    State.startCommand_started _ free (fun _ => rfl) fun _ => trivial
  have restarts : Started .pwm 0x57#8 (.restart slp rst) (fun _ => True) s (acceptRestart Config.params s) :=
    State.startCommand_started _ free (fun _ => rfl) fun _ => trivial
  exact ⟨⟨_, rfl, sleeps, sleeps.writesMode free rfl fun q k hop => by rw [programOf, hop]; rfl⟩,
    ⟨_, rfl, wakes, wakes.writesMode free rfl fun q k hop => by rw [programOf, hop]; rfl⟩,
    ⟨_, rfl, restarts, restarts.writesMode free rfl fun q k hop => by rw [programOf, hop]; rfl⟩⟩

/-! ### The channel writes (rule R241) -/

/-- The program of a channel write: the four tick registers, in order. -/
theorem tickProgram_pwmProgram {q : Seq} {ch on off : Nat} {value : Word} (hon : on ≤ 4096) (hoff : off ≤ 4096)
    (own_slot : q.op.slot = some .pwm) (hstep : q.step = .at 1)
    (program : ∀ q' k, q'.op = q.op →
      programOf Config.params q' k = tickProgram (channelBase ch) (BitVec.ofNat 16 on) (BitVec.ofNat 16 off) value k) :
    PwmProgram value q (List.replicate 4 (.ok [])) ((tickFrames ch on off).map fun op => .bus .pwm op (some [])) := by
  rw [tickFrames_eq ch on off (by omega) (by omega)]
  exact .step (.write (k := 1) ⟨own_slot, hstep, program _ _ rfl⟩) <|
    .step (.write (k := 2) ⟨own_slot, rfl, program _ _ rfl⟩) <|
    .step (.write (k := 3) ⟨own_slot, rfl, program _ _ rfl⟩) <|
    .step (.write (k := 4) ⟨own_slot, rfl, program _ _ rfl⟩) <|
    .retire (k := 5) ⟨own_slot, rfl, program _ _ rfl⟩

theorem Started.writesTicks {opcode : Byte} {op : Op} {ch on off : Nat} {value : Word} {s t : State}
    (started : Started .pwm opcode op (fun _ => True) s t) (free : Free .pwm s) (hon : on ≤ 4096) (hoff : off ≤ 4096)
    (own_slot : op.slot = some .pwm)
    (program : ∀ q k, q.op = op →
      programOf Config.params q k = tickProgram (channelBase ch) (BitVec.ofNat 16 on) (BitVec.ofNat 16 off) value k) :
    WritesTicks opcode ch on off value s t := by
  obtain ⟨q, rfl, origin, rfl, hstep, -, -, rfl⟩ := started
  intro a
  have steps := tickProgram_pwmProgram hon hoff own_slot hstep program
  have ends := steps.runsTo free.2 a
  rw [responseTo_cmd origin rfl] at ends
  refine ⟨ends, fun j hj => ?_⟩
  have transacts : ((tickFrames ch on off).map fun op => TraceEntry.bus .pwm op (some []))[j]?.any (·.isBusOf .pwm) = true := by
    rw [List.getElem?_map, List.getElem?_eq_getElem (show j < (tickFrames ch on off).length from hj)]
    rfl
  have fails := steps.runsTo_fail transacts free.2 a
  rw [responseTo_cmd origin rfl, State.countPwmError_eq, List.take_replicate, Nat.min_eq_left hj.le, ← List.map_drop,
    ← List.map_take, ← List.map_take, List.map_map] at fails
  exact fails

theorem exec_setpwm_started {ch on off : Nat} {s : State} (hon : on ≤ 4096) (hoff : off ≤ 4096) (free : Free .pwm s) :
    ∃ t, exec (.setpwm ch on off) s = .next t ∧
      Started .pwm 0x51#8 (.setpwm (channelBase ch) (BitVec.ofNat 16 on) (BitVec.ofNat 16 off)) (fun _ => True) s t := by
  refine ⟨_, rfl, ?_⟩
  simp only [acceptSetpwm, (tickLegal_iff on).mpr hon, (tickLegal_iff off).mpr hoff, Bool.and_self, if_true]
  exact State.startCommand_started _ free (fun _ => rfl) fun _ => trivial

theorem exec_setpwm_rangeError {on off : Nat} (illegal : 4096 < on ∨ 4096 < off) (ch : Nat) (s : State) :
    exec (.setpwm ch on off) s = .next (s.logged [answered 0x51#8 .rangeError 0#32]) := by
  have refused : ¬ (tickLegal on && tickLegal off) = true := by rw [Bool.and_eq_true, tickLegal_iff, tickLegal_iff]; omega
  simp only [exec, execSetpwm, acceptSetpwm, if_neg refused]
  rfl

/-- Settles O54: the channel write of the ticks given; a tick above 4096 is refused. -/
theorem setpwmWritesTheTicks : Obligations.SetpwmWritesTheTicks := by
  refine ⟨fun ch on off s _ hon hoff free => ?_, fun ch on off s _ _ _ illegal => exec_setpwm_rangeError illegal ch s⟩
  obtain ⟨t, accepted, started⟩ := exec_setpwm_started hon hoff free
  exact ⟨t, accepted, started, started.writesTicks free hon hoff rfl fun q k hop => by rw [programOf, hop]; rfl⟩

/-- Settles O55: two channel writes with fixed ticks. -/
theorem fullonAndFulloffAreSetpwm : Obligations.FullonAndFulloffAreSetpwm := by
  intro ch s _ free
  have on : Started .pwm 0x52#8 (.fullon (channelBase ch) 4096#16 0#16) (fun _ => True) s (acceptFullon ch s) :=
    State.startCommand_started _ free (fun _ => rfl) fun _ => trivial
  have off : Started .pwm 0x53#8 (.fulloff (channelBase ch) 0#16 4096#16) (fun _ => True) s (acceptFulloff ch s) :=
    State.startCommand_started _ free (fun _ => rfl) fun _ => trivial
  exact ⟨⟨_, rfl, on, on.writesTicks free le_rfl (Nat.zero_le _) rfl fun q k hop => by rw [programOf, hop]; rfl⟩,
    ⟨_, rfl, off, off.writesTicks free (Nat.zero_le _) le_rfl rfl fun q k hop => by rw [programOf, hop]; rfl⟩⟩

/-! ### `SETDUTY` (rules R250 to R252) -/

theorem duty_le {pct : Nat} (h : pct ≤ 100) : duty pct ≤ 4096 := by
  simp only [duty, pwmCountMax]
  omega

/-- Within 0..100 the ticks are the sentinels at the ends and the rounded duty between them. -/
theorem dutyTicks_eq {pct : Int} (low : 0 ≤ pct) (high : pct ≤ 100) :
    dutyTicks pct =
      some (if pct = 100 then 4096 else 0, if pct = 0 then 4096 else if pct = 100 then 0 else duty pct.toNat) := by
  unfold dutyTicks
  by_cases none_on : pct = 0
  · subst none_on; rfl
  · by_cases all_on : pct = 100
    · subst all_on; rfl
    · rw [if_neg none_on, if_neg all_on, if_neg none_on, if_neg all_on, if_neg all_on, if_pos (by omega)]

theorem dutyTicks_eq_none {pct : Int} (outside : pct < 0 ∨ 100 < pct) : dutyTicks pct = none := by
  rw [dutyTicks, if_neg (by omega), if_neg (by omega), if_neg (by omega)]

theorem exec_setduty_ignored {pct : Int} (outside : pct < 0 ∨ 100 < pct) (ch : Nat) (s : State) :
    exec (.setduty ch pct) s = .next (s.logged [answered 0x54#8 .ignored 0#32]) := by
  simp only [exec, execSetduty, acceptSetduty, dutyTicks_eq_none outside]
  rfl

theorem exec_setduty_started {pct : Int} {on off : Nat} (ticks : dutyTicks pct = some (on, off)) (ch : Nat) {s : State}
    (free : Free .pwm s) :
    ∃ t, exec (.setduty ch pct) s = .next t ∧
      Started .pwm 0x54#8 (.setduty (channelBase ch) (BitVec.ofNat 16 on) (BitVec.ofNat 16 off)) (fun _ => True) s t := by
  refine ⟨_, rfl, ?_⟩
  simp only [acceptSetduty, ticks]
  exact State.startCommand_started _ free (fun _ => rfl) fun _ => trivial

theorem zext16_ofNat {v : Nat} (h : v < 65536) : zext16 (BitVec.ofNat 16 v) = BitVec.ofNat 32 v := by
  apply BitVec.eq_of_toNat_eq
  simp only [zext16, BitVec.toNat_setWidth, BitVec.toNat_ofNat]
  omega

/-- Settles O56: a channel write of the ticks of the percent; a percent outside 0..100 has none. -/
theorem setdutyWritesOrIgnores : Obligations.SetdutyWritesOrIgnores := by
  refine ⟨?_, fun ch pct s _ outside => exec_setduty_ignored outside ch s⟩
  intro ch pct s _ low high free on off
  have ticks : dutyTicks pct = some (on, off) := dutyTicks_eq low high
  have hon : on ≤ 4096 := by
    simp only [on]
    split <;> omega
  have hoff : off ≤ 4096 := by
    have := duty_le (pct := pct.toNat) (by omega)
    simp only [duty, pwmCountMax] at this
    simp only [off]
    split
    · exact le_rfl
    · split <;> omega
  obtain ⟨t, accepted, started⟩ := exec_setduty_started ticks ch free
  refine ⟨t, accepted, started, started.writesTicks free hon hoff rfl fun q k hop => ?_⟩
  rw [programOf, hop, ← zext16_ofNat (by omega : off < 65536)]
  rfl

/-! ### `SETFREQ` (rule R236) -/

theorem exec_setfreq_started {hz : Nat} {s : State} (low : 24 ≤ hz) (high : hz ≤ 1526) (free : Free .pwm s) :
    ∃ t, exec (.setfreq hz) s = .next t ∧
      Started .pwm 0x50#8
        (.setfreq (BitVec.ofNat 8 (prescale hz)) Config.params.mode1Sleep Config.params.mode1Restart) (fun _ => True) s t := by
  refine ⟨_, rfl, ?_⟩
  simp only [acceptSetfreq, (hzLegal_iff hz).mpr ⟨low, high⟩, if_true]
  exact State.startCommand_started _ free (fun _ => rfl) fun _ => trivial

/-- The bus answers of a `SETFREQ` up to its retire, `a` standing for its delays. -/
def setfreqAnswers (m1 m2 m3 : Byte) (a : BusAnswer) : List BusAnswer :=
  [.ok [m1], .ok [], a, .ok [], .ok [m2], .ok [], a, .ok [m3], .ok [], a]

/-- The entries of a `SETFREQ` up to its retire. -/
def setfreqEntries (v slp rst m1 m2 m3 : Byte) : List TraceEntry :=
  [readBack .pwm 0x00#8 [m1], wrote .pwm [0x00#8, sleepByte slp rst m1], .delay .pwm 5#16, wrote .pwm [0xFE#8, v],
   readBack .pwm 0x00#8 [m2], wrote .pwm [0x00#8, wakeByte slp rst m2], .delay .pwm 5#16,
   readBack .pwm 0x00#8 [m3], wrote .pwm [0x00#8, restartByte slp rst m3], .delay .pwm 5#16]

section Setfreq

variable {q : Seq} {v slp rst : Byte} (hop : q.op = .setfreq v slp rst)

include hop

theorem setfreq_sleeps (hstep : q.step = .at 1) : ChangesMode q 1 (sleepByte slp rst) where
  read := .of_op hop rfl hstep rfl
  write _ := .of_op hop rfl rfl rfl
  settle _ := .of_op hop rfl rfl rfl

theorem setfreq_wakes (hstep : q.step = .at 5) : ChangesMode q 5 (wakeByte slp rst) where
  read := .of_op hop rfl hstep rfl
  write _ := .of_op hop rfl rfl rfl
  settle _ := .of_op hop rfl rfl rfl

theorem setfreq_restarts (hstep : q.step = .at 8) : ChangesMode q 8 (restartByte slp rst) where
  read := .of_op hop rfl hstep rfl
  write _ := .of_op hop rfl rfl rfl
  settle _ := .of_op hop rfl rfl rfl

/-- The program of `SETFREQ`: sleep, write the prescale, wake, restart. -/
theorem setfreq_pwmProgram (hstep : q.step = .at 1) (m1 m2 m3 : Byte) (a : BusAnswer) :
    PwmProgram (v.setWidth 32) q (setfreqAnswers m1 m2 m3 a) (setfreqEntries v slp rst m1 m2 m3) := by
  have prescales (q' : Seq) (same : q'.op = .setfreq v slp rst) :
      PwmStep (q'.goto 4) (.ok []) (wrote .pwm [0xFE#8, v]) (q'.goto 5) := .write (k := 4) (.of_op same rfl rfl rfl)
  refine (setfreq_sleeps hop hstep).pwmProgram m1 a (.step (prescales (q.latchStatus m1) hop) ?_)
  refine (setfreq_wakes (by exact hop) rfl).pwmProgram m2 a ?_
  refine (setfreq_restarts (by exact hop) rfl).pwmProgram m3 a ?_
  exact .retire (k := 11) (.of_op hop rfl rfl rfl)

end Setfreq

/-- The seven transactions of `SETFREQ`, by their places among its entries. -/
theorem setfreqEntries_transact (v slp rst m1 m2 m3 : Byte) :
    ∀ j ∈ [0, 1, 3, 4, 5, 7, 8], (setfreqEntries v slp rst m1 m2 m3)[j]?.any (·.isBusOf .pwm) = true := by
  simp only [List.forall_mem_cons]
  exact ⟨rfl, rfl, rfl, rfl, rfl, rfl, rfl, fun _ h => nomatch h⟩

theorem setWidth_ofNat_byte {v : Nat} (h : v < 256) : (BitVec.ofNat 8 v).setWidth 32 = BitVec.ofNat 32 v := by
  apply BitVec.eq_of_toNat_eq
  simp only [BitVec.toNat_setWidth, BitVec.toNat_ofNat]
  omega

/-- Settles O52: the eleven micro-steps, and the end at each of the seven transactions. -/
theorem setfreqSleepsWritesWakesRestarts : Obligations.SetfreqSleepsWritesWakesRestarts := by
  refine ⟨?_, fun hz s illegal _ => exec_setfreq_rangeError illegal s⟩
  intro hz m1 m2 m3 a s low high free slp rst v answers entries
  obtain ⟨t, accepted, started⟩ := exec_setfreq_started low high free
  refine ⟨t, accepted, started, ?_⟩
  obtain ⟨q, hop, origin, opcode, hstep, -, -, rfl⟩ := started
  have steps := setfreq_pwmProgram hop hstep m1 m2 m3 a
  rw [setWidth_ofNat_byte (by have := prescale_bounds low high; omega)] at steps
  refine ⟨?_, fun j hj => ?_⟩
  · have ends := steps.runsTo free.2 a
    rwa [responseTo_cmd origin opcode] at ends
  · have fails := steps.runsTo_fail (setfreqEntries_transact _ _ _ _ _ _ j hj) free.2 a
    rwa [responseTo_cmd origin opcode, State.countPwmError_eq] at fails

end Sys2Proof.Machine
end

section
/-!
The sweep host family: what each transition of the host leaves within the bounds, and what a stopped host leaves (46_sweep_host.md).
-/

namespace Sys2Proof.Machine

/-! ### Positions within the bounds (rules R280, R281, R285) -/

/-- A position within the bounds of the host. -/
def SweepParams.Within (c : SweepParams) (position : Int) : Prop := c.minServo ≤ position ∧ position ≤ c.maxServo

theorem SweepParams.legal_iff {c : SweepParams} :
    c.legal = true ↔ 0 ≤ c.minServo ∧ c.maxServo ≤ 4095 ∧ 36 ≤ c.maxServo - c.minServo ∧ c.channel < pwmNchan := by
  simp only [SweepParams.legal, Bool.and_eq_true, decide_eq_true_eq, and_assoc]
  rfl

theorem SweepParams.within_minServo {c : SweepParams} (legal : c.legal = true) : c.Within c.minServo := by
  obtain ⟨-, -, apart, -⟩ := SweepParams.legal_iff.mp legal
  exact ⟨le_rfl, by omega⟩

theorem Sweep.inBounds_iff {c : SweepParams} {h : Sweep} :
    h.inBounds c = true ↔ c.Within h.currentPosition ∧ ∀ next, .advance next ∈ h.unanswered → c.Within next := by
  simp only [Sweep.inBounds, Bool.and_eq_true, decide_eq_true_eq, List.all_eq_true, SweepParams.Within]
  refine and_congr_right fun _ => ⟨fun all next mem => by simpa using all _ mem, fun all command mem => ?_⟩
  cases command with
  | positioning => rfl
  | advance next => simpa using all next mem

/-- A step is never negative, and the clamp is at the bound it moves towards. -/
theorem Sweep.within_nextPosition {c : SweepParams} (legal : c.legal = true) {h : Sweep} (within : c.Within h.currentPosition) :
    c.Within (h.nextPosition c) := by
  obtain ⟨-, -, apart, -⟩ := SweepParams.legal_iff.mp legal
  have forward : 0 ≤ c.stepSize := Int.ediv_nonneg (by omega) (by omega)
  obtain ⟨low, high⟩ := within
  unfold Sweep.nextPosition
  cases h.direction with
  | incrementing => exact ⟨le_min (by omega) (by omega), min_le_right _ _⟩
  | decrementing => exact ⟨le_max_right _ _, max_le (by omega) (by omega)⟩

/-! ### The transitions keep the bounds (rules R284, R285, R291) -/

/-- A `SETPWM` of the host's channel to a position within its bounds, which the block does not refuse for range. -/
def SweepParams.Allows (c : SweepParams) (j : Instr) : Prop :=
  ∃ off : Nat, j = .setpwm c.channel 0 off ∧ c.minServo ≤ off ∧ (off : Int) ≤ c.maxServo ∧ operandRefusal Config.params j = none

theorem SweepParams.allows_command {c : SweepParams} (legal : c.legal = true) {position : Int} (within : c.Within position) :
    c.Allows (c.command position) := by
  obtain ⟨nonneg, top, -, -⟩ := SweepParams.legal_iff.mp legal
  obtain ⟨low, high⟩ := within
  have same : (position.toNat : Int) = position := Int.toNat_of_nonneg (by omega)
  refine ⟨position.toNat, rfl, by omega, by omega, ?_⟩
  have legalTicks : ¬(4096 < 0 ∨ 4096 < position.toNat) := by omega
  simp only [SweepParams.command, operandRefusal, if_neg legalTicks]

/-- What a transition answers, the host and its actions, is within the bounds. -/
def KeepsBounds (c : SweepParams) (r : Sweep × List SweepAction) : Prop :=
  r.1.inBounds c = true ∧ ∀ j, .issue j ∈ r.2 → c.Allows j

section Transitions

variable {c : SweepParams} {h : Sweep}

theorem Sweep.inBounds_initial (legal : c.legal = true) : (Sweep.initial c).inBounds c = true :=
  Sweep.inBounds_iff.mpr ⟨SweepParams.within_minServo legal, by simp [Sweep.initial]⟩

/-- No advance is left in flight by `start()`, and its one command is that of the lower bound. -/
theorem Sweep.start_keepsBounds (legal : c.legal = true) (h : Sweep) : KeepsBounds c (h.start c) := by
  have lower := SweepParams.within_minServo legal
  refine ⟨Sweep.inBounds_iff.mpr ⟨lower, by simp [Sweep.start]⟩, fun j issued => ?_⟩
  obtain rfl : j = c.command c.minServo := by simpa [Sweep.start] using issued
  exact SweepParams.allows_command legal lower

variable (within : h.inBounds c = true)

include within

theorem Sweep.onSettled_keepsBounds : KeepsBounds c h.onSettled := by
  obtain ⟨silent, position, -, unanswered⟩ := h.onSettled_frame
  refine ⟨?_, by simp [silent]⟩
  rw [Sweep.inBounds_iff, position, unanswered]
  exact Sweep.inBounds_iff.mp within

theorem Sweep.onReading_keepsBounds (legal : c.legal = true) (r : SweepReading) : KeepsBounds c (h.onReading c r) := by
  obtain ⟨position, -⟩ := Sweep.inBounds_iff.mp within
  have next := Sweep.within_nextPosition legal position
  rcases h.onReading_cases c r with ignored | ⟨-, -, -, -, advances⟩
  · rw [ignored]
    exact ⟨within, by simp⟩
  · rw [advances]
    refine ⟨Sweep.inBounds_iff.mpr ⟨position, by simpa using next⟩, fun j issued => ?_⟩
    obtain rfl : j = c.command (h.nextPosition c) := by simpa using issued
    exact SweepParams.allows_command legal next

theorem Sweep.onEvent_keepsBounds (legal : c.legal = true) (e : Event) : KeepsBounds c (h.onEvent c e) := by
  rcases h.onEvent_cases c e with ignored | ⟨r, -, reads⟩
  · rw [ignored]
    exact ⟨within, by simp⟩
  · rw [reads]
    exact Sweep.onReading_keepsBounds within legal r

/-- A committed position is that of an advance in flight, which is within the bounds. -/
theorem Sweep.onResponse_keepsBounds (status : Status) : KeepsBounds c (h.onResponse c status) := by
  obtain ⟨position, inFlight⟩ := Sweep.inBounds_iff.mp within
  obtain ⟨silent, rest, moved⟩ := h.onResponse_cases c status
  refine ⟨Sweep.inBounds_iff.mpr ⟨?_, fun next mem => inFlight next (List.mem_of_mem_tail (rest ▸ mem))⟩,
    fun j issued => absurd issued (silent j)⟩
  rcases moved with stays | ⟨next, others, -, -, oldest, commits⟩
  · rwa [stays]
  · rw [commits]
    exact inFlight next (by simp [oldest])

theorem Sweep.stop_keepsBounds : KeepsBounds c h.stop := ⟨within, by simp [Sweep.stop]⟩

end Transitions

theorem Sweep.handle_keepsBounds {c : SweepParams} (legal : c.legal = true) {i : SweepInput} {h : Sweep}
    (within : i = .start ∨ h.inBounds c = true) : KeepsBounds c (h.handle c i) := by
  cases i with
  | start => exact Sweep.start_keepsBounds legal h
  | settled => exact Sweep.onSettled_keepsBounds (within.resolve_left nofun)
  | event e => exact Sweep.onEvent_keepsBounds (within.resolve_left nofun) legal e
  | response status => exact Sweep.onResponse_keepsBounds (within.resolve_left nofun) status
  | stop => exact Sweep.stop_keepsBounds (within.resolve_left nofun)

/-! ### A stopped host (rule R290) -/

theorem Sweep.onSettled_stopped (h : Sweep) : h.onSettled.1.stopped = h.stopped := by
  unfold Sweep.onSettled
  split <;> rfl

/-- A response sets no flag: `stopped` is written by `start()` and `stop()` only. -/
theorem Sweep.onResponse_stopped (c : SweepParams) (status : Status) (h : Sweep) :
    (h.onResponse c status).1.stopped = h.stopped := by
  unfold Sweep.onResponse
  split
  case h_1 | h_2 => rfl
  case h_3 =>
    dsimp only
    split
    · rfl
    · split <;> rfl

/-- What a transition answers is still stopped, at this position, and issues nothing. -/
def StaysHalted (position : Int) (r : Sweep × List SweepAction) : Prop :=
  r.1.stopped = true ∧ r.1.currentPosition = position ∧ ∀ j, .issue j ∉ r.2

section Halted

variable {h : Sweep} (halted : h.stopped = true)

include halted

theorem Sweep.ignored_staysHalted : StaysHalted h.currentPosition (h, []) := ⟨halted, rfl, by simp⟩

theorem Sweep.onSettled_staysHalted : StaysHalted h.currentPosition h.onSettled := by
  obtain ⟨silent, position, -, -⟩ := h.onSettled_frame
  exact ⟨h.onSettled_stopped.trans halted, position, by simp [silent]⟩

theorem Sweep.onEvent_staysHalted (c : SweepParams) (e : Event) : StaysHalted h.currentPosition (h.onEvent c e) := by
  rcases h.onEvent_cases c e with ignored | ⟨r, -, reads⟩
  · rw [ignored]
    exact Sweep.ignored_staysHalted halted
  · rcases h.onReading_cases c r with ignored | ⟨awake, -⟩
    · rw [reads, ignored]
      exact Sweep.ignored_staysHalted halted
    · simp [halted] at awake

theorem Sweep.onResponse_staysHalted (c : SweepParams) (status : Status) :
    StaysHalted h.currentPosition (h.onResponse c status) := by
  obtain ⟨silent, -, moved⟩ := h.onResponse_cases c status
  refine ⟨(h.onResponse_stopped c status).trans halted, ?_, silent⟩
  rcases moved with stays | ⟨-, -, -, awake, -⟩
  · exact stays
  · simp [halted] at awake

theorem Sweep.handle_staysHalted (c : SweepParams) {i : SweepInput} (notStart : i ≠ .start) :
    StaysHalted h.currentPosition (h.handle c i) := by
  cases i with
  | start => exact absurd rfl notStart
  | settled => exact Sweep.onSettled_staysHalted halted
  | event e => exact Sweep.onEvent_staysHalted halted c e
  | response status => exact Sweep.onResponse_staysHalted halted c status
  | stop => exact ⟨rfl, rfl, by simp [Sweep.handle, Sweep.stop]⟩

end Halted

/-- Settles O60: the bounds and the halt, each transition by transition. -/
theorem sweepStaysInBounds : Obligations.SweepStaysInBounds := fun c =>
  ⟨fun legal => ⟨Sweep.inBounds_initial legal, fun _ _ within => Sweep.handle_keepsBounds legal within⟩,
    fun _ _ halted notStart => Sweep.handle_staysHalted halted c notStart⟩

end Sys2Proof.Machine
end

section
/-!
POLL, the commands answered at once (47_poll.md rules R316 to R319) and the tick (rules R320, R321).
-/

namespace Sys2Proof.Machine

/-! ### Configuration writes (rule R318) -/

/-- The must-be-zero bits of a register are those above its low `k` bits. -/
theorem highBits_eq_zero_iff {k n : Nat} (v : BitVec (k + n)) : v.extractLsb' k n = 0#n ↔ v.toNat < 2 ^ k := by
  have small : v.toNat / 2 ^ k < 2 ^ n := Nat.div_lt_of_lt_mul (pow_add 2 k n ▸ v.isLt)
  rw [← BitVec.toNat_inj, BitVec.extractLsb'_toNat, Nat.shiftRight_eq_div_pow, Nat.mod_eq_of_lt small, BitVec.toNat_ofNat,
    Nat.zero_mod, Nat.div_eq_zero_iff_lt (Nat.two_pow_pos k)]

/-- A configuration write, register by register (10_state.md rule R40). -/
theorem State.writeControl_eq (s : State) (reg : Byte) (val : Half) :
    s.writeControl reg val =
      if reg = 0x00#8 ∧ val.toNat < 2 ^ 8 then some { s with adcChmask := val }
      else if reg = 0x01#8 ∧ val.toNat < 2 ^ 2 then some { s with pxaKinds := val }
      else if reg = 0x02#8 then some { s with pollMaxAmb := val }
      else if reg = 0x03#8 then some { s with pollMaxProx := val }
      else if reg = 0x04#8 then some { s with pollGapMs := val }
      else none := by
  have chmask : val.extractLsb' 8 8 = 0#8 ↔ val.toNat < 2 ^ 8 := highBits_eq_zero_iff (k := 8) (n := 8) val
  have kinds : val.extractLsb' 2 14 = 0#14 ↔ val.toNat < 2 ^ 2 := highBits_eq_zero_iff (k := 2) (n := 14) val
  unfold State.writeControl
  simp only [chmask, kinds]
  simp only [← BitVec.toNat_inj (x := reg)]
  split
  case h_1 h | h_2 h | h_3 h | h_4 h | h_5 h => simp [h]
  case h_6 => simp_all

theorem exec_cfgw_eq (reg : Byte) (val : Half) (s : State) :
    exec (.cfgw reg val) s = .next
      (match s.writeControl reg val with
        | some t => t.logged [answered 0x01#8 .ok 0#32]
        | none => s.logged [answered 0x01#8 .rangeError 0#32]) := by
  rw [exec, execCfgw]
  cases s.writeControl reg val <;> rfl

/-- Settles O22. -/
theorem cfgwWritesItsRegister : Obligations.CfgwWritesItsRegister := by
  intro reg val s
  rw [exec_cfgw_eq, State.writeControl_eq]
  split_ifs <;> rfl

/-! ### Configuration reads (rule R319) -/

theorem toNat_slotStatus (guard timerEn stopped resValid : Bool) :
    (slotStatus guard timerEn stopped resValid).toNat =
      guard.toNat + 2 * timerEn.toNat + 4 * stopped.toNat + 8 * resValid.toNat := by
  cases guard <;> cases timerEn <;> cases stopped <;> cases resValid <;> rfl

theorem zext16_eq_ofNat (v : Half) : zext16 v = BitVec.ofNat 32 v.toNat := by
  rw [← zext16_ofNat v.isLt, BitVec.ofNat_toNat, BitVec.setWidth_eq]

theorem State.toNat_resLow (s : State) (d : Sensor) : (s.resLow d).toNat = (s.res.get d).toNat % 65536 := by
  simp [State.resLow, BitVec.extractLsb'_toNat]

theorem State.toNat_resHigh (s : State) (d : Sensor) : (s.resHigh d).toNat = (s.res.get d).toNat / 65536 := by
  have := (s.res.get d).isLt
  rw [State.resHigh, BitVec.extractLsb'_toNat, Nat.shiftRight_eq_div_pow]
  omega

theorem toNat_bit (b : Bool) : (0#15 ++ BitVec.ofBool b).toNat = b.toNat := by cases b <;> rfl

theorem toNat_setWidth_byte (b : Byte) : (b.setWidth 16).toNat = b.toNat := BitVec.toNat_setWidth_of_le (by decide)

/-- The table of 10_state.md rule R40: the value at each index. -/
def State.controlTable (s : State) : List (Nat × Nat) :=
  [ (0x00, s.adcChmask.toNat), (0x01, s.pxaKinds.toNat), (0x02, s.pollMaxAmb.toNat), (0x03, s.pollMaxProx.toNat),
    (0x04, s.pollGapMs.toNat),
    (0x10, s.guard.adc.toNat + 2 * s.timerEn.adc.toNat + 4 * s.stopped.adc.toNat + 8 * s.resValid.adc.toNat),
    (0x11, s.guard.pxa.toNat + 2 * s.timerEn.pxa.toNat + 4 * s.stopped.pxa.toNat + 8 * s.resValid.pxa.toNat),
    (0x12, s.guard.usr.toNat + 2 * s.timerEn.usr.toNat + 4 * s.stopped.usr.toNat + 8 * s.resValid.usr.toNat),
    (0x13, s.guard.pwm.toNat + 4 * s.stopped.pwm.toNat),
    (0x14, s.interval.adc.toNat), (0x15, s.interval.pxa.toNat), (0x16, s.interval.usr.toNat),
    (0x18, s.skipCount.adc.toNat), (0x19, s.skipCount.pxa.toNat), (0x1A, s.skipCount.usr.toNat),
    (0x1C, s.pwmErrcnt.toNat), (0x1D, s.lastStatus.toNat), (0x1E, s.crcOk.toNat), (0x1F, s.adcCurCh.toNat),
    (0x20, s.res.adc.toNat % 65536), (0x21, s.res.pxa.toNat % 65536), (0x22, s.res.usr.toNat % 65536),
    (0x24, s.res.adc.toNat / 65536), (0x25, s.res.pxa.toNat / 65536), (0x26, s.res.usr.toNat / 65536) ]

/-- A configuration read is the look-up of its index in the table. -/
theorem State.lookup_controlTable (s : State) (reg : Byte) :
    s.controlTable.lookup reg.toNat = (s.readControl reg).map BitVec.toNat := by
  unfold State.readControl
  split
  case h_26 =>
    rw [Option.map_none, List.lookup_eq_none_iff]
    simp_all [State.controlTable]
  all_goals
    next h =>
      simp [h, State.controlTable, List.lookup, State.sensorStatus, toNat_slotStatus, Sensor.slot,
        State.toNat_resLow, State.toNat_resHigh, toNat_bit, toNat_setWidth_byte, -BitVec.toNat_setWidth]

theorem exec_cfgr_eq (reg : Byte) (s : State) :
    exec (.cfgr reg) s = .next (s.logged
      [match (s.readControl reg).map BitVec.toNat with
        | some v => answered 0x02#8 .ok (BitVec.ofNat 32 v)
        | none => answered 0x02#8 .rangeError 0#32]) := by
  rw [exec, execCfgr]
  cases s.readControl reg with
  | none => rfl
  | some v =>
    simp only [zext16_eq_ofNat]
    rfl

/-- Settles O23. -/
theorem cfgrReadsTheTable : Obligations.CfgrReadsTheTable := by
  intro reg s table
  rw [exec_cfgr_eq, ← State.lookup_controlTable]
  rfl

/-! ### Timers (rules R316, R317) -/

/-- Settles O24. -/
theorem startStartsTheTimer : Obligations.StartStartsTheTimer := by
  intro interval s _
  refine ⟨rfl, fun d => ?_⟩
  have accepted : exec (.start d.slot interval) s =
      if interval = 0 then .next (s.respond 0x03#8 .rangeError 0#32)
      else if s.stopped.get d.slot then .next (s.respond 0x03#8 .stopped 0#32)
      else .next ((s.startTimer d (BitVec.ofNat 16 interval)).respond 0x03#8 .ok 0#32) := by cases d <;> rfl
  rw [accepted]
  split_ifs <;> rfl

theorem exec_stop_sensor (d : Sensor) (s : State) :
    exec (.stop d.slot) s = .next
      (State.logged { s with stopped := s.stopped.set d.slot true, timerEn := s.timerEn.set d false }
        [answered 0x04#8 .ok 0#32]) := by
  cases d <;> rfl

theorem PerSensor.set_of_get {α : Type} {v : PerSensor α} {d : Sensor} {x : α} (h : v.get d = x) : v.set d x = v :=
  h ▸ v.set_get_self d

/-- Stopping a stopped slot writes what stands there already, since its timer is off (rule R328 I2). -/
theorem State.stopSlot_of_stopped {s : State} {d : Slot} (inv : Inv Config.params s) (stopped : s.stopped.get d = true) :
    s.stopSlot d = s := by
  have kept := PerSlot.set_of_get stopped
  cases hd : d.sensor with
  | none => simp only [State.stopSlot, hd, kept]
  | some e =>
    have timer : s.timerEn.get e = false := inv.stopped_timer_off e (by cases d <;> cases hd <;> exact stopped)
    simp only [State.stopSlot, hd, kept, PerSensor.set_of_get timer]

/-- Settles O25. -/
theorem stopStopsTheSlot : Obligations.StopStopsTheSlot := by
  refine ⟨fun s => rfl, exec_stop_sensor, fun d s inv stopped => ?_⟩
  rw [exec, execStop, State.stopSlot_of_stopped inv stopped]
  rfl

/-! ### Ticks (rules R320, R321) -/

theorem cycleOp_eq (d : Sensor) (s : State) :
    cycleOp Config.params d s =
      match d with
      | .adc => .adcCycle (s.adcChmask.setWidth 8) Config.params.adcConvDelayMs (Config.params.slave .adc)
      | .pxa => .pxaCycle (s.pxaKinds.setWidth 2) s.pollMaxAmb s.pollMaxProx s.pollGapMs
      | .usr => .usrCycle := by
  cases d <;> rfl

theorem State.countSkip_eq (s : State) (d : Sensor) :
    s.countSkip d = { s with skipCount := s.skipCount.set d (raisedByOne (s.skipCount.get d)) } := by
  rw [State.countSkip, saturatingSucc_eq]

/-- Settles O26. -/
theorem tickSkipsOrStartsACycle : Obligations.TickSkipsOrStartsACycle := by
  intro d s
  refine ⟨fun off => ?_, fun enabled busy => ?_, fun enabled idle => ⟨_, rfl, ?_⟩⟩
  · rw [deliver, tickStep, if_pos off]
  · rw [deliver, tickStep, if_neg (by simp [enabled]), if_pos busy, State.countSkip_eq]
  · have started := tickStep_startedByTick (p := Config.params) enabled idle
    rw [cycleOp_eq] at started
    exact started

end Sys2Proof.Machine
end

section
/-!
Acceptance of the commands that use a slot (47_poll.md rules R314, R315): a refused operand is answered first; with legal operands
the command is `State.startCommand`, and what it latches is legal (10_state.md rule R36).
-/

namespace Sys2Proof.Machine

/-! ### Refused operands (rule R314 step 2) -/

/-- Settles O18, command by command; the commands without an operand check refuse none. -/
theorem operandsCheckedFirst : Obligations.OperandsCheckedFirst := by
  intro i status s refused
  cases i with
  | adtrig b =>
    obtain ⟨absent, ⟨⟩⟩ := Option.ite_none_right_eq_some.mp refused
    exact exec_adtrig_absent absent s
  | admeas b =>
    obtain ⟨absent, ⟨⟩⟩ := Option.ite_none_right_eq_some.mp refused
    exact exec_admeas_absent absent s
  | pxled units =>
    obtain ⟨illegal, ⟨⟩⟩ := Option.ite_none_right_eq_some.mp refused
    exact exec_pxled_rangeError illegal s
  | setfreq hz =>
    obtain ⟨illegal, ⟨⟩⟩ := Option.ite_none_right_eq_some.mp refused
    exact exec_setfreq_rangeError illegal s
  | setpwm ch on off =>
    obtain ⟨illegal, ⟨⟩⟩ := Option.ite_none_right_eq_some.mp refused
    exact exec_setpwm_rangeError illegal ch s
  | setduty ch pct =>
    obtain ⟨outside, ⟨⟩⟩ := Option.ite_none_right_eq_some.mp refused
    exact exec_setduty_ignored outside ch s
  | cfgw | cfgr | start | stop | adread | pxtrig | pxrdy | pxread | pxmeas | ustrig | usread | usmeas | crcv | fullon | fulloff
  | sleep | wake | restart => cases refused

/-! ### Legal values at step 1 of an operation -/

theorem Op.length_pos {op : Op} {d : Slot} (own_slot : op.slot = some d) : 1 ≤ op.length := by
  cases op with
  | idle => cases own_slot
  | _ => exact Nat.le_add_left 1 _

/-- A sequencer at step 1 of an operation of its own slot, with legal values latched and nothing pending. -/
theorem seqOk_at_start {p : Params} {d : Slot} {q : Seq} (own_slot : q.op.slot = some d) (start : q.step = .at 1)
    (clear : q.exc = .none) (args : ArgsOk p q) : SeqOk p d q where
  own_slot := own_slot
  position := by
    rw [PositionOk, start]
    exact ⟨le_rfl, Op.length_pos own_slot, clear⟩
  args := args

theorem adcArgsOk_of_supported {p : Params} {b : Nat} {q : Seq} (supported : b < p.adcNchan) (hch : q.ch = BitVec.ofNat 8 b) :
    AdcArgsOk p (cfgWord p b) q := by
  have few : p.adcNchan ≤ 8 := p.adcLastCh.isLt
  have channel : q.ch.toNat = b := by
    rw [hch, BitVec.toNat_ofNat]
    omega
  rw [AdcArgsOk, channel]
  exact ⟨supported, rfl⟩

theorem tickArgsOk_of_le {ch on off : Nat} (hch : fitsUnsigned 4 ch = true) (hon : on ≤ 4096) (hoff : off ≤ 4096) :
    TickArgsOk (channelBase ch) (BitVec.ofNat 16 on) (BitVec.ofNat 16 off) := by
  refine ⟨⟨ch, of_decide_eq_true hch, rfl⟩, ?_, ?_⟩ <;> rw [BitVec.toNat_ofNat, pwmSteps] <;> omega

/-- The ticks of a percent that acts are at most the sentinel (45_pwm.md rules R250, R252). -/
theorem dutyTicks_le {pct : Int} {on off : Nat} (h : dutyTicks pct = some (on, off)) : on ≤ 4096 ∧ off ≤ 4096 := by
  unfold dutyTicks at h
  split_ifs at h with none_on all_on between <;> cases h
  · exact ⟨Nat.zero_le _, le_rfl⟩
  · exact ⟨le_rfl, Nat.zero_le _⟩
  · exact ⟨Nat.zero_le _, duty_le (by omega)⟩

theorem exists_dutyTicks {pct : Int} (legal : ¬ (pct < 0 ∨ 100 < pct)) : ∃ on off, dutyTicks pct = some (on, off) :=
  ⟨_, _, dutyTicks_eq (by omega) (by omega)⟩

/-! ### With legal operands the slot decides (rule R314 steps 4 to 6) -/

/-- What a command latches is legal: from a sequencer at step 1 with nothing pending it makes one that may run in slot `d`. -/
def LatchesLegal (p : Params) (d : Slot) (latch : Seq → Seq) : Prop :=
  ∀ q : Seq, q.step = .at 1 → q.exc = .none → SeqOk p d (latch q)

/-- The command is an acceptance by slot `d`, and from a frame, whose operands fit their fields, it latches legal values. -/
def AcceptedBySlot (i : Instr) (d : Slot) (s : State) : Prop :=
  ∃ latch, exec i s = .next (s.startCommand d i.opcode latch) ∧ (i.WellFormed = true → LatchesLegal Config.params d latch)

/-- A command of slot `d` with legal operands is an acceptance by slot `d`. -/
theorem exec_acceptedBySlot {i : Instr} {d : Slot} (hd : commandSlot i = some d)
    (legal : operandRefusal Config.params i = none) (s : State) : AcceptedBySlot i d s := by
  cases i with
  | cfgw | cfgr | start | stop | crcv => cases hd
  | adtrig b =>
    cases hd
    have supported : ¬ Config.params.adcNchan ≤ b := by simpa [operandRefusal] using legal
    refine ⟨_, congrArg Host.Outcome.next (if_neg (by simpa [channelAbsent] using supported)), fun _ q start clear => ?_⟩
    exact seqOk_at_start rfl start clear (adcArgsOk_of_supported (not_le.mp supported) rfl)
  | admeas b =>
    cases hd
    have supported : ¬ Config.params.adcNchan ≤ b := by simpa [operandRefusal] using legal
    refine ⟨_, congrArg Host.Outcome.next (if_neg (by simpa [channelAbsent] using supported)), fun _ q start clear => ?_⟩
    exact seqOk_at_start rfl start clear ⟨adcArgsOk_of_supported (not_le.mp supported) rfl, rfl, rfl⟩
  | pxled units =>
    cases hd
    have legal : units ≤ 20 := by simpa [operandRefusal] using legal
    refine ⟨_, congrArg Host.Outcome.next (if_pos ((unitsLegal_iff units).mpr legal)), fun _ q start clear => ?_⟩
    exact seqOk_at_start rfl start clear ((Nat.mod_le _ _).trans legal)
  | setfreq hz =>
    cases hd
    have legal : hzLegal hz = true := (hzLegal_iff hz).mpr (by simpa [operandRefusal] using legal)
    refine ⟨_, congrArg Host.Outcome.next (if_pos legal), fun _ q start clear => ?_⟩
    exact seqOk_at_start rfl start clear ⟨⟨hz, legal, rfl⟩, rfl, rfl⟩
  | setpwm ch on off =>
    cases hd
    obtain ⟨hon, hoff⟩ : on ≤ 4096 ∧ off ≤ 4096 := by simpa [operandRefusal] using legal
    have ticks : (tickLegal on && tickLegal off) = true :=
      (Bool.and_eq_true _ _).mpr ⟨(tickLegal_iff on).mpr hon, (tickLegal_iff off).mpr hoff⟩
    refine ⟨_, congrArg Host.Outcome.next (if_pos ticks), fun fits q start clear => ?_⟩
    obtain ⟨⟨hch, -⟩, -⟩ : (fitsUnsigned 4 ch = true ∧ _) ∧ _ := by
      simpa only [Instr.WellFormed, Bool.and_eq_true] using fits
    exact seqOk_at_start rfl start clear (tickArgsOk_of_le hch hon hoff)
  | fullon ch =>
    cases hd
    exact ⟨_, rfl, fun fits q start clear => seqOk_at_start rfl start clear (tickArgsOk_of_le fits le_rfl (Nat.zero_le _))⟩
  | fulloff ch =>
    cases hd
    exact ⟨_, rfl, fun fits q start clear => seqOk_at_start rfl start clear (tickArgsOk_of_le fits (Nat.zero_le _) le_rfl)⟩
  | setduty ch pct =>
    cases hd
    obtain ⟨on, off, ticks⟩ := exists_dutyTicks (by simpa [operandRefusal] using legal)
    obtain ⟨hon, hoff⟩ := dutyTicks_le ticks
    have accepted : exec (.setduty ch pct) s = .next (s.startCommand .pwm (Instr.setduty ch pct).opcode fun q =>
        { q with op := .setduty (channelBase ch) (BitVec.ofNat 16 on) (BitVec.ofNat 16 off) }) := by
      simp only [exec, execSetduty, acceptSetduty, ticks]
    refine ⟨_, accepted, fun fits q start clear => ?_⟩
    exact seqOk_at_start rfl start clear (tickArgsOk_of_le ((Bool.and_eq_true _ _).mp fits).1 hon hoff)
  | pxmeas k =>
    cases hd
    refine ⟨_, rfl, fun _ q start clear => seqOk_at_start rfl start clear ?_⟩
    simp [ArgsOk, start]
  | adread | pxtrig | pxrdy | pxread | ustrig | usread | usmeas =>
    cases hd
    exact ⟨_, rfl, fun _ q start clear => seqOk_at_start rfl start clear trivial⟩
  | sleep | wake | restart =>
    cases hd
    exact ⟨_, rfl, fun _ q start clear => seqOk_at_start rfl start clear ⟨rfl, rfl⟩⟩

/-- Settles O19: the acceptance tests the stopped bit, then the guard. -/
theorem stoppedThenBusyRefused : Obligations.StoppedThenBusyRefused := by
  intro i d s hd legal
  obtain ⟨latch, accepted, -⟩ := exec_acceptedBySlot hd legal s
  constructor
  · intro stopped
    rw [accepted, State.startCommand_stopped _ _ stopped, State.respond_eq_logged]
  · intro running busy
    rw [accepted, State.startCommand_busy _ _ running busy, State.respond_eq_logged]

end Sys2Proof.Machine
end

section
/-!
The invariant (47_poll.md rule R328) in two parts, the registers and the sequencers, and what keeps each of them.
-/

namespace Sys2Proof.Machine

/-! ### The two parts of the invariant -/

/-- The invariant's part on the registers: I2 and I5 of rule R328 and the must-be-zero bits of 10_state.md rule R40. -/
structure RegistersOk (s : State) : Prop where
  stopped_timer_off : ∀ d : Sensor, s.stopped.get d.slot = true → s.timerEn.get d = false
  res_legal : ∀ d, (s.res.get d).toNat ≤ 65535 ∨ s.res.get d = absentReading
  absent_not_valid : ∀ d, s.res.get d = absentReading → s.resValid.get d = false
  chmask_legal : s.adcChmask.toNat < 256
  kinds_legal : s.pxaKinds.toNat < 4

/-- The invariant's part on slot `d`: idle with its guard clear, or running legal contents with its guard set (I1). -/
inductive SlotOk (p : Params) (d : Slot) (s : State) : Prop
  | idle (clear : s.guard.get d = false) (op : (s.seq.get d).op = .idle)
  | running (set : s.guard.get d = true) (seq : SeqOk p d (s.seq.get d))

theorem SeqOk.op_ne_idle {p : Params} {d : Slot} {q : Seq} (ok : SeqOk p d q) : q.op ≠ .idle := by
  intro h
  have own_slot := ok.own_slot
  rw [h] at own_slot
  cases own_slot

theorem Inv.registersOk {p : Params} {s : State} (inv : Inv p s) : RegistersOk s := { inv with }

theorem Inv.seqOk {p : Params} {s : State} (inv : Inv p s) {d : Slot} (busy : s.guard.get d = true) :
    SeqOk p d (s.seq.get d) := inv.seq_ok d ((inv.guard_iff_running d).mp busy)

theorem Inv.slotOk {p : Params} {s : State} (inv : Inv p s) (d : Slot) : SlotOk p d s := by
  cases hg : s.guard.get d with
  | true => exact .running hg (inv.seqOk hg)
  | false => exact .idle hg (not_not.mp fun running => by simp [(inv.guard_iff_running d).mpr running] at hg)

theorem Inv.of_parts {p : Params} {s : State} (registers : RegistersOk s) (slots : ∀ d, SlotOk p d s) : Inv p s :=
  { registers with
    guard_iff_running := fun d => by
      rcases slots d with ⟨clear, op⟩ | ⟨set, seq⟩
      · simp [clear, op]
      · simp [set, seq.op_ne_idle]
    seq_ok := fun d running => by
      rcases slots d with ⟨-, op⟩ | ⟨-, seq⟩
      · exact absurd op running
      · exact seq }

theorem SlotOk.of_eq {p : Params} {d : Slot} {s t : State} (ok : SlotOk p d s) (guard : t.guard.get d = s.guard.get d)
    (seq : t.seq.get d = s.seq.get d) : SlotOk p d t := by
  rcases ok with ⟨clear, op⟩ | ⟨set, ok⟩
  · exact .idle (guard.trans clear) (seq ▸ op)
  · exact .running (guard.trans set) (seq ▸ ok)

/-- A change of registers alone keeps the slots' part. -/
theorem Inv.with_registers {p : Params} {s t : State} (inv : Inv p s) (registers : RegistersOk t)
    (guard : t.guard = s.guard) (seq : t.seq = s.seq) : Inv p t :=
  .of_parts registers fun d => (inv.slotOk d).of_eq (by rw [guard]) (by rw [seq])

/-! ### What keeps the registers' part -/

namespace RegistersOk

variable {s : State}

theorem setGuard (h : RegistersOk s) (d : Slot) (b : Bool) : RegistersOk (s.setGuard d b) := { h with }

theorem setSeq (h : RegistersOk s) (d : Slot) (q : Seq) : RegistersOk (s.setSeq d q) := { h with }

theorem logged (h : RegistersOk s) (es : List TraceEntry) : RegistersOk (s.logged es) := { h with }

/-- A result may be a reading, or the sentinel marked invalid (10_state.md rule R26). -/
theorem setRes (h : RegistersOk s) (d : Sensor) {v : Word} {b : Bool}
    (legal : v.toNat ≤ 65535 ∨ v = absentReading ∧ b = false) : RegistersOk (s.setRes d v b) :=
  { h with
    res_legal := fun e => by
      by_cases he : e = d
      · subst he
        simpa using legal.imp_right And.left
      · simpa [he] using h.res_legal e
    absent_not_valid := fun e => by
      by_cases he : e = d
      · subst he
        rcases legal with reading | ⟨-, rfl⟩
        · intro absent
          rw [State.setRes_res, PerSensor.get_set_same] at absent
          rw [absent] at reading
          exact absurd reading (by decide)
        · simp
      · simpa [he] using h.absent_not_valid e }

theorem setRes_reading (h : RegistersOk s) (d : Sensor) (v : Half) (b : Bool) : RegistersOk (s.setRes d (zext16 v) b) :=
  h.setRes d (.inl (toNat_zext16_le v))

theorem latchRead (h : RegistersOk s) (d : Slot) (op : BusOp) (rd : List Byte) : RegistersOk (s.latchRead d op rd) := by
  cases op with
  | write => exact h
  | read | writeThenRead => exact h.setSeq d _

theorem release (h : RegistersOk s) (d : Slot) : RegistersOk (s.release d) := (h.setGuard d false).setSeq d _

theorem answer (h : RegistersOk s) (q : Seq) (status : Status) (value : Word) : RegistersOk (s.answer q status value) := by
  rw [State.answer_eq_logged]
  exact h.logged _

theorem markAbsent (h : RegistersOk s) (d : Slot) (kind : ExcKind) : RegistersOk (s.markAbsent d kind) := by
  unfold State.markAbsent
  split
  · exact h.setRes _ (.inr ⟨rfl, rfl⟩)
  · exact h

theorem reportException (h : RegistersOk s) (d : Slot) (kind : ExcKind) : RegistersOk (s.reportException d kind) := by
  rcases s.reportException_cases d kind with ⟨-, eq⟩ | ⟨-, -, eq⟩ | ⟨-, -, eq⟩ <;> rw [eq]
  · exact { h with }
  · exact h.logged _
  · exact h

theorem failExit (h : RegistersOk s) (d : Slot) (kind : ExcKind) (status : Status) (value : Word) :
    RegistersOk (s.failExit d kind status value) :=
  ((((h.markAbsent d kind).reportException d kind).release d).setSeq d _).answer _ _ _

/-- The assignments on the line of a bus action reach no register of this part. -/
theorem writes_busLine (h : RegistersOk s) {d : Slot} {f : State → State} (hf : Writes d .busLine f) : RegistersOk (f s) := by
  induction hf with
  | none => exact h
  | seq g _ ih => exact ih.setSeq d _
  | adcCurCh _ _ _ _ ih | lastStatus _ _ _ _ ih => exact { ih with }
  | result hw | event hw => cases hw

end RegistersOk

/-- The assignments keep the registers' part. -/
def KeepsRegisters (f : State → State) : Prop := ∀ s, RegistersOk s → RegistersOk (f s)

theorem keepsRegisters_id : KeepsRegisters id := fun _ h => h

theorem KeepsRegisters.goto {f : State → State} (hf : KeepsRegisters f) (d : Slot) (k : Nat) :
    KeepsRegisters fun s => (f s).goto d k := fun s h => (hf s h).setSeq d _

theorem setRes_keepsRegisters (d : Sensor) (v : Half) (b : Bool) : KeepsRegisters fun s => s.setRes d (zext16 v) b :=
  fun _ h => h.setRes_reading d v b

theorem adcPublish_keepsRegisters (address : BitVec 7) (q : Seq) : KeepsRegisters (adcPublish address q) :=
  fun _ h => (h.setRes_reading .adc _ true).logged _

theorem usrPublish_keepsRegisters (q : Seq) : KeepsRegisters (usrPublish q) :=
  fun _ h => (h.setRes_reading .usr _ true).logged _

theorem pxaPublish_keepsRegisters (p : Params) (q : Seq) : KeepsRegisters (pxaPublish p q) := by
  intro s h
  have published := h.setRes_reading .pxa (rawOf q.rd) true
  unfold pxaPublish
  cases q.k
  · exact published.logged _
  · exact published.logged _

theorem adcCycleSelect_keepsRegisters (p : Params) (mask : Byte) (q : Seq) : KeepsRegisters (adcCycleSelect p mask q) := by
  intro s h
  unfold adcCycleSelect
  split
  · exact h.setSeq _ _
  · exact h.setSeq _ _

theorem pxaCycleSelect_keepsRegisters (kinds : BitVec 2) (pmAmb pmProx : Half) (q : Seq) :
    KeepsRegisters (pxaCycleSelect kinds pmAmb pmProx q) := by
  intro s h
  unfold pxaCycleSelect
  split
  · exact h.setSeq _ _
  · split
    · exact h.setSeq _ _
    · exact h.setSeq _ _

theorem waitTest_keepsRegisters (readStep : Nat) (q : Seq) : KeepsRegisters (waitTest readStep q) := by
  intro s h
  unfold waitTest
  split
  · exact h.setSeq _ _
  · exact h.setSeq _ _

/-! ### Reset (10_state.md rule R48) -/

/-- The reset values meet the invariant: every slot idle, every timer off, every result a reading. -/
theorem ResetValues.inv {p : Params} {s : State} (h : ResetValues p s) : Inv p s := by
  refine .of_parts ⟨fun d _ => h.timerEn d, fun d => .inl ?_, fun d _ => h.resValid d, ?_, ?_⟩
    fun d => .idle (h.guard d) (h.seq_idle d).1
  · rw [h.res]
    decide
  · rw [h.adcChmask]
    decide
  · rw [h.pxaKinds]
    decide

/-- Settles O10. -/
theorem invariantAtReset : Obligations.InvariantAtReset := resetHoldsTheTable.inv

theorem resetStep_inv (s : State) : Inv Config.params (resetStep Config.params s) :=
  { invariantAtReset with }

/-! ### Acceptance (rule R314) -/

/-- An acceptance by a slot keeps the invariant: it answers, or a free slot starts with legal values. -/
theorem Inv.startCommand {p : Params} {s : State} (inv : Inv p s) {d : Slot} {opcode : Byte} {latch : Seq → Seq}
    (legal : LatchesLegal p d latch) : Inv p (s.startCommand d opcode latch) := by
  rcases s.startCommand_cases d opcode latch with ⟨-, h⟩ | ⟨-, -, h⟩ | ⟨-, h⟩ <;> rw [h]
  · exact inv.with_registers (inv.registersOk.logged _) rfl rfl
  · exact inv.with_registers (inv.registersOk.logged _) rfl rfl
  · refine .of_parts ((inv.registersOk.setGuard d true).setSeq d _) fun e => ?_
    by_cases he : e = d
    · subst he
      refine .running (by simp [State.beginCommand]) ?_
      simpa [State.beginCommand] using legal _ rfl rfl
    · exact (inv.slotOk e).of_eq (by simp [State.beginCommand, he]) (by simp [State.beginCommand, he])

theorem State.writeControl_keepsRegisters {s t : State} {reg : Byte} {val : Half} (h : RegistersOk s)
    (written : s.writeControl reg val = some t) : RegistersOk t := by
  rw [State.writeControl_eq] at written
  split_ifs at written with chmask kinds <;> cases written
  · exact { h with chmask_legal := chmask.2 }
  · exact { h with kinds_legal := kinds.2 }
  · exact { h with }
  · exact { h with }
  · exact { h with }

theorem exec_cfgw_inv {reg : Byte} {val : Half} {s t : State} (inv : Inv Config.params s)
    (h : exec (.cfgw reg val) s = .next t) : Inv Config.params t := by
  rw [exec_cfgw_eq] at h
  cases hw : s.writeControl reg val with
  | none =>
    rw [hw] at h
    cases h
    exact inv.with_registers (inv.registersOk.logged _) rfl rfl
  | some u =>
    rw [hw] at h
    cases h
    obtain ⟨guard, seq, -⟩ := State.writeControl_frame hw
    exact inv.with_registers ((State.writeControl_keepsRegisters inv.registersOk hw).logged _) guard seq

theorem exec_cfgr_inv {reg : Byte} {s t : State} (inv : Inv Config.params s) (h : exec (.cfgr reg) s = .next t) :
    Inv Config.params t := by
  rw [exec_cfgr_eq] at h
  cases h
  exact inv.with_registers (inv.registersOk.logged _) rfl rfl

theorem Slot.sensor_eq_some {slot : Slot} {d : Sensor} : slot.sensor = some d ↔ slot = d.slot := by
  cases slot <;> cases d <;> decide

/-- A timer is started on a slot that is not stopped only (rules R316, R328 I2). -/
theorem RegistersOk.startTimer {s : State} (h : RegistersOk s) {d : Sensor} (running : ¬ s.stopped.get d.slot = true)
    (interval : Half) : RegistersOk (s.startTimer d interval) :=
  { h with
    stopped_timer_off := fun e stopped => by
      have hne : e ≠ d := by
        rintro rfl
        exact running stopped
      simpa [hne] using h.stopped_timer_off e stopped }

/-- A slot that is stopped loses its timer (rules R317, R328 I2). -/
theorem RegistersOk.stopSlot {s : State} (h : RegistersOk s) (d : Slot) : RegistersOk (s.stopSlot d) := by
  have kept (e : Sensor) (he : e.slot ≠ d) (stopped : (s.stopped.set d true).get e.slot = true) : s.timerEn.get e = false :=
    h.stopped_timer_off e (by rwa [PerSlot.get_set_ne _ _ _ _ he] at stopped)
  unfold State.stopSlot
  split
  · next e hd =>
    obtain rfl := Slot.sensor_eq_some.mp hd
    refine { h with stopped_timer_off := fun e' stopped => ?_ }
    by_cases he : e' = e
    · simp [he]
    · have hslot : e'.slot ≠ e.slot := fun same =>
        he (Option.some.inj ((Slot.sensor_eq_some.mpr rfl).symm.trans (Slot.sensor_eq_some.mpr same)))
      simpa [he] using kept e' hslot stopped
  · next none =>
    refine { h with stopped_timer_off := fun e stopped => kept e (fun same => ?_) stopped }
    rw [Slot.sensor_eq_some.mpr same.symm] at none
    cases none

theorem exec_start_inv {slot : Slot} {interval : Nat} {s t : State} (inv : Inv Config.params s)
    (h : exec (.start slot interval) s = .next t) : Inv Config.params t := by
  simp only [exec, execStart] at h
  split at h
  · cases h
    exact inv.with_registers (inv.registersOk.logged _) rfl rfl
  · next d hd =>
    obtain rfl := Slot.sensor_eq_some.mp hd
    split_ifs at h with zero stopped <;> cases h
    · exact inv.with_registers (inv.registersOk.logged _) rfl rfl
    · exact inv.with_registers (inv.registersOk.logged _) rfl rfl
    · exact inv.with_registers ((inv.registersOk.startTimer stopped _).logged _) rfl rfl

theorem exec_stop_inv {slot : Slot} {s t : State} (inv : Inv Config.params s) (h : exec (.stop slot) s = .next t) :
    Inv Config.params t := by
  cases h
  obtain ⟨guard, seq, -⟩ := s.stopSlot_frame slot
  exact inv.with_registers ((inv.registersOk.stopSlot slot).logged _) guard seq

theorem exec_crcv_inv {data : Half} {crc : Byte} {quirk strict : Bool} {s t : State} (inv : Inv Config.params s)
    (h : exec (.crcv data crc quirk strict) s = .next t) : Inv Config.params t := by
  have checked : RegistersOk (s.setCrcOk (crcValid data crc quirk)) := { inv.registersOk with }
  simp only [exec, execCrcv] at h
  split_ifs at h <;> cases h
  · exact inv.with_registers (checked.logged _) rfl rfl
  · exact inv.with_registers ((checked.logged _).logged _) rfl rfl
  · exact inv.with_registers (checked.logged _) rfl rfl

/-- A command that uses a slot answers the refusal of an operand, with at most the zero reading of an absent `ADMEAS`, or is an
acceptance by its slot, which latches legal values where the command comes from a frame. -/
theorem exec_slotCommand_cases {i : Instr} {d : Slot} {s t : State} (hd : commandSlot i = some d) (h : exec i s = .next t) :
    (∃ es, t = s.logged es) ∨ (∃ es, t = (s.setRes .adc 0#32 false).logged es) ∨
      ∃ latch, t = s.startCommand d i.opcode latch ∧ (i.WellFormed = true → LatchesLegal Config.params d latch) := by
  cases refused : operandRefusal Config.params i with
  | some status =>
    rw [operandsCheckedFirst i status s refused] at h
    cases h
    split
    · exact .inr (.inl ⟨_, rfl⟩)
    · exact .inl ⟨_, rfl⟩
  | none =>
    obtain ⟨latch, accepted, legal⟩ := exec_acceptedBySlot hd refused s
    rw [accepted] at h
    cases h
    exact .inr (.inr ⟨latch, rfl, legal⟩)

/-- The acceptance step of a command from a frame keeps the invariant. -/
theorem exec_inv {i : Instr} (fits : i.WellFormed = true) {s t : State} (inv : Inv Config.params s) (h : exec i s = .next t) :
    Inv Config.params t := by
  cases hd : commandSlot i with
  | some d =>
    have registers := inv.registersOk
    rcases exec_slotCommand_cases hd h with ⟨es, rfl⟩ | ⟨es, rfl⟩ | ⟨latch, rfl, legal⟩
    · exact inv.with_registers (registers.logged es) rfl rfl
    · exact inv.with_registers ((registers.setRes .adc (.inl (by decide))).logged es) rfl rfl
    · exact inv.startCommand (legal fits)
  | none =>
    cases i with
    | cfgw => exact exec_cfgw_inv inv h
    | cfgr => exact exec_cfgr_inv inv h
    | start => exact exec_start_inv inv h
    | stop => exact exec_stop_inv inv h
    | crcv => exact exec_crcv_inv inv h
    | _ => cases hd

theorem acceptFrame_inv {f : Frame} {s t : State} (inv : Inv Config.params s) (h : acceptFrame f s = .next t) :
    Inv Config.params t := by
  cases hf : decode f with
  | ok i =>
    rw [acceptFrame_of_decode s hf] at h
    exact exec_inv (encodeOfDecode f i hf).2 inv h
  | error e =>
    simp only [acceptFrame, hf] at h
    cases h
    exact inv.with_registers (inv.registersOk.logged _) rfl rfl

/-! ### Ticks (rules R320, R321) -/

/-- A cycle latches legal values. -/
theorem cycleOp_argsOk {p : Params} (d : Sensor) (s : State) {q : Seq} (op : q.op = cycleOp p d s) (start : q.step = .at 1)
    (cursor : q.cursor = 0) : ArgsOk p q := by
  cases d <;> simp [ArgsOk, op, cycleOp, adcCycleOp, pxaCycleOp, start, cursor]

theorem cycleOp_slot (p : Params) (d : Sensor) (s : State) : (cycleOp p d s).slot = some d.slot := by cases d <;> rfl

theorem tickStep_inv {p : Params} {s : State} (inv : Inv p s) (d : Sensor) : Inv p (tickStep p d s) := by
  rcases tickStep_cases p d s with ⟨-, h⟩ | ⟨-, -, h⟩ | ⟨-, -, h⟩ <;> rw [h]
  · exact inv
  · exact { inv with }
  · refine .of_parts ((inv.registersOk.setGuard d.slot true).setSeq d.slot _) fun e => ?_
    by_cases he : e = d.slot
    · subst he
      refine .running (by simp [State.beginCycle]) ?_
      rw [State.beginCycle, State.setSeq_seq, PerSlot.get_set_same]
      exact seqOk_at_start (cycleOp_slot p d s) rfl rfl (cycleOp_argsOk d s rfl rfl rfl)
    · exact (inv.slotOk e).of_eq (by simp [State.beginCycle, he]) (by simp [State.beginCycle, he])

end Sys2Proof.Machine
end

section
/-!
Progress of a running operation (47_poll.md rule R326): every program has an action at each of its positions, and an action that
does not end the operation leaves a legal sequencer with fewer micro-steps left.
-/

namespace Sys2Proof.Machine

/-! ### The micro-steps left of a sequencer -/

/-- At most so many micro-steps are left of the operation that `q` holds. -/
def seqLeft (q : Seq) : Nat :=
  match q.step with
  | .failExit => 1
  | .at k => stepsLeftAt q k

theorem seqLeft_at {q : Seq} {k : Nat} (h : q.step = .at k) : seqLeft q = stepsLeftAt q k := by rw [seqLeft, h]

theorem seqLeft_failExit {q : Seq} (h : q.step = .failExit) : seqLeft q = 1 := by rw [seqLeft, h]

theorem stepsLeft_idle {d : Slot} {s : State} (h : s.guard.get d = false) : stepsLeft d s = 0 := if_pos h

theorem stepsLeft_busy {d : Slot} {s : State} (h : s.guard.get d = true) : stepsLeft d s = seqLeft (s.seq.get d) :=
  if_neg (by simp [h])

/-- The program of the operation goes back to an earlier step: the two cycles with a selection, and the ready waits. -/
def Op.loops : Op → Bool
  | .adcCycle _ _ _ | .pxmeas _ | .pxaCycle _ _ _ _ => true
  | _ => false

theorem stepsLeftAt_straight {q : Seq} (straight : q.op.loops = false) (k : Nat) : stepsLeftAt q k = q.op.length + 1 - k := by
  cases hop : q.op <;> simp_all [stepsLeftAt, Op.loops]

/-- The micro-steps left of the measurement of one kind, at its `i`-th step, with `n` status reads left (42_codec_pxa.md rules
R162, R171): two of the trigger, the test, the two of the wait's loop, two of the result. -/
def roundLeft (n : Nat) : Nat → Nat
  | 0 => 2 * n + 4
  | 1 => 2 * n + 3
  | 2 => 2 * n + 2
  | 3 => 2 * n + 1
  | 4 => 2 * n + 2
  | 5 => 2
  | _ => 1

theorem roundLeft_pos (n i : Nat) : 1 ≤ roundLeft n i := by
  unfold roundLeft
  split <;> omega

theorem stepsLeftAt_pxmeas {q : Seq} {gap : Half} (op : q.op = .pxmeas gap) {i : Nat} (inside : i ≤ 6) :
    stepsLeftAt q (1 + i) = 1 + roundLeft q.n.toNat i := by
  simp only [stepsLeftAt, op]
  interval_cases i <;> simp [roundLeft] <;> omega

theorem stepsLeftAt_pxmeas_retire {q : Seq} {gap : Half} (op : q.op = .pxmeas gap) : stepsLeftAt q 8 = 1 := by
  simp [stepsLeftAt, op]

section PxaCycle

variable {q : Seq} {kinds : BitVec 2} {pmAmb pmProx gap : Half} (op : q.op = .pxaCycle kinds pmAmb pmProx gap)
include op

theorem stepsLeftAt_pxaCycle_select : stepsLeftAt q 1 = pxaCycleLeft pmAmb pmProx q.cursor := by
  simp only [stepsLeftAt, op, if_true]

theorem stepsLeftAt_pxaCycle_retire : stepsLeftAt q 9 = 1 := by
  simp [stepsLeftAt, op]

theorem stepsLeftAt_pxaCycle {i : Nat} (inside : i ≤ 6) :
    stepsLeftAt q (2 + i) = pxaCycleLeft pmAmb pmProx q.cursor + roundLeft q.n.toNat i := by
  simp only [stepsLeftAt, op]
  interval_cases i <;> simp [roundLeft]

end PxaCycle

section AdcCycle

variable {q : Seq} {mask : Byte} {delayMs : Half} {address : BitVec 7} (op : q.op = .adcCycle mask delayMs address)
include op

theorem stepsLeftAt_adcCycle_select : stepsLeftAt q 1 = adcCycleLeft q.cursor := by
  simp only [stepsLeftAt, op, if_true]

theorem stepsLeftAt_adcCycle_retire : stepsLeftAt q 6 = 1 := by
  simp [stepsLeftAt, op]

theorem stepsLeftAt_adcCycle {k : Nat} (low : 2 ≤ k) (high : k ≤ 5) :
    stepsLeftAt q k = 6 - k + adcCycleLeft q.cursor := by
  simp only [stepsLeftAt, op, if_neg (show k ≠ 1 by omega), if_neg (show k ≠ 6 by omega)]

end AdcCycle

/-- At every position of its program an operation has a micro-step left. -/
theorem stepsLeftAt_pos {q : Seq} {k : Nat} (low : 1 ≤ k) (high : k ≤ q.op.length) : 1 ≤ stepsLeftAt q k := by
  cases hop : q.op <;> rw [hop, Op.length] at high
  case pxmeas =>
    obtain ⟨i, rfl⟩ := Nat.exists_eq_add_of_le low
    obtain inside | rfl : i ≤ 6 ∨ i = 7 := by omega
    · rw [stepsLeftAt_pxmeas hop inside]
      exact Nat.le_add_right 1 _
    · exact (stepsLeftAt_pxmeas_retire hop).ge
  case pxaCycle =>
    obtain rfl | rfl | ⟨inside, below⟩ : k = 1 ∨ k = 9 ∨ 2 ≤ k ∧ k ≤ 8 := by omega
    · rw [stepsLeftAt_pxaCycle_select hop, pxaCycleLeft]
      omega
    · exact (stepsLeftAt_pxaCycle_retire hop).ge
    · obtain ⟨i, rfl⟩ := Nat.exists_eq_add_of_le inside
      rw [stepsLeftAt_pxaCycle hop (by omega), pxaCycleLeft]
      omega
  case adcCycle =>
    obtain rfl | rfl | ⟨inside, below⟩ : k = 1 ∨ k = 6 ∨ 2 ≤ k ∧ k ≤ 5 := by omega
    · rw [stepsLeftAt_adcCycle_select hop, adcCycleLeft]
      omega
    · rw [stepsLeftAt_adcCycle_retire hop]
    · rw [stepsLeftAt_adcCycle hop inside below]
      omega
  all_goals
    rw [stepsLeftAt_straight (by rw [hop]; rfl), hop, Op.length]
    omega

/-- A legal running sequencer has a micro-step left. -/
theorem SeqOk.seqLeft_pos {p : Params} {d : Slot} {q : Seq} (ok : SeqOk p d q) : 1 ≤ seqLeft q := by
  have position := ok.position
  rcases hstep : q.step with k | _
  · rw [PositionOk, hstep] at position
    obtain ⟨low, high, -⟩ := position
    rw [seqLeft_at hstep]
    exact stepsLeftAt_pos low high
  · exact (seqLeft_failExit hstep).ge

/-! ### Moves of a sequencer -/

/-- The sequencer of slot `d` goes from `q` to `q'`, which is legal and has fewer micro-steps left. -/
structure Moves (p : Params) (d : Slot) (q q' : Seq) : Prop where
  ok : SeqOk p d q'
  less : seqLeft q' < seqLeft q

/-- What an action at step `k` of the operation in `q` does: it moves the sequencer of slot `d`, whatever the bus answers, or it
retires; and its assignments keep the registers' part of the invariant. -/
def Action.Proceeds (p : Params) (d : Slot) (q : Seq) (k : Nat) : Action → Prop
  | .bus _ after =>
    Moves p d q q.failing ∧
      ∀ rd bytes (s : State), s.seq.get d = (q.withRd bytes).goto (k + 1) → Moves p d q ((after rd s).seq.get d)
  | .delay _ next => Moves p d q (q.goto next)
  | .internal act =>
    (∀ s : State, s.seq.get d = q.goto (k + 1) → Moves p d q ((act s).seq.get d)) ∧ KeepsRegisters act
  | .retire final _ => KeepsRegisters final

section Moving

variable {p : Params} {d : Slot} {q q' : Seq} {k j : Nat}

/-- A move to a step of the program. -/
theorem SeqOk.moves_to (ok : SeqOk p d q) (at_k : q.step = .at k) (op : q'.op = q.op) (exc : q'.exc = q.exc)
    (at_j : q'.step = .at j) (low : 1 ≤ j) (high : j ≤ q.op.length) (args : ArgsOk p q')
    (less : stepsLeftAt q' j < stepsLeftAt q k) : Moves p d q q' where
  ok :=
    { own_slot := op ▸ ok.own_slot
      position := by
        have position := ok.position
        rw [PositionOk, at_k] at position
        obtain ⟨-, -, clear⟩ := position
        rw [PositionOk, at_j, op]
        exact ⟨low, high, exc.trans clear⟩
      args := args }
  less := by rwa [seqLeft_at at_k, seqLeft_at at_j]

/-- A move to the fail-exit (60_exceptions.md rule R362). -/
theorem SeqOk.moves_to_failExit (ok : SeqOk p d q) (op : q'.op = q.op) (at_exit : q'.step = .failExit) (pending : q'.exc ≠ .none)
    (timeout : q'.exc = .timeout → d = .pxa) (args : ArgsOk p q') (less : 1 < seqLeft q) : Moves p d q q' where
  ok :=
    { own_slot := op ▸ ok.own_slot
      position := by
        rw [PositionOk, at_exit]
        exact ⟨pending, timeout⟩
      args := args }
  less := by rwa [seqLeft_failExit at_exit]

/-! ### Programs that go straight on -/

/-- The two sequencers are at the same point of the same operation. -/
structure SameCourse (q q' : Seq) : Prop where
  op : q'.op = q.op
  ch : q'.ch = q.ch
  step : q'.step = q.step
  exc : q'.exc = q.exc

/-- The action at step `k` of a program of `n` steps goes on to the next step, or retires. -/
def Action.GoesOn (d : Slot) (n k : Nat) : Action → Prop
  | .bus _ after => k < n ∧ ∀ rd (s : State), SameCourse (s.seq.get d) ((after rd s).seq.get d)
  | .delay _ next => k < n ∧ next = k + 1
  | .internal act => k < n ∧ (∀ s : State, (act s).seq = s.seq) ∧ KeepsRegisters act
  | .retire final _ => KeepsRegisters final

theorem SameCourse.refl (q : Seq) : SameCourse q q := ⟨rfl, rfl, rfl, rfl⟩

theorem ArgsOk.congr (straight : q.op.loops = false) (args : ArgsOk p q) (op : q'.op = q.op) (ch : q'.ch = q.ch) :
    ArgsOk p q' := by
  unfold ArgsOk at args ⊢
  rw [op]
  cases hop : q.op <;> rw [hop] at straight args <;> simp_all [AdcArgsOk, Op.loops]

theorem SeqOk.moves_on (ok : SeqOk p d q) (straight : q.op.loops = false) (at_k : q.step = .at k) (inside : k < q.op.length)
    (op : q'.op = q.op) (ch : q'.ch = q.ch) (exc : q'.exc = q.exc) (next : q'.step = .at (k + 1)) : Moves p d q q' := by
  refine ok.moves_to at_k op exc next (Nat.le_add_left 1 k) inside (ok.args.congr straight op ch) ?_
  rw [stepsLeftAt_straight straight, stepsLeftAt_straight (op ▸ straight), op]
  omega

theorem SeqOk.moves_to_failing (ok : SeqOk p d q) (straight : q.op.loops = false) (at_k : q.step = .at k)
    (inside : k < q.op.length) : Moves p d q q.failing := by
  refine ok.moves_to_failExit rfl rfl nofun nofun (ok.args.congr straight rfl rfl) ?_
  rw [seqLeft_at at_k, stepsLeftAt_straight straight]
  omega

/-- In a program without loops, going on is a move. -/
theorem Action.GoesOn.proceeds {act : Action} (h : act.GoesOn d q.op.length k) (ok : SeqOk p d q)
    (straight : q.op.loops = false) (at_k : q.step = .at k) : act.Proceeds p d q k := by
  cases act with
  | bus op after =>
    obtain ⟨inside, course⟩ := h
    refine ⟨ok.moves_to_failing straight at_k inside, fun rd bytes s hs => ?_⟩
    have same := course rd s
    rw [hs] at same
    exact ok.moves_on straight at_k inside same.op same.ch same.exc same.step
  | delay ms next =>
    obtain ⟨inside, rfl⟩ := h
    exact ok.moves_on straight at_k inside rfl rfl rfl rfl
  | internal act =>
    obtain ⟨inside, seq, keeps⟩ := h
    refine ⟨fun s hs => ?_, keeps⟩
    rw [seq, hs]
    exact ok.moves_on straight at_k inside rfl rfl rfl rfl
  | retire final value => exact h

end Moving

/-- Every action of the program, of `n` steps, goes on to the next step, or retires. -/
def StraightProgram (d : Slot) (n : Nat) (program : Nat → Option Action) : Prop :=
  ∀ ⦃k act⦄, program k = some act → act.GoesOn d n k

theorem plain_goesOn {d : Slot} {n k : Nat} (inside : k < n) (op : BusOp) : (Action.plain op).GoesOn d n k :=
  ⟨inside, fun _ _ => .refl _⟩

theorem adtrigProgram_straight (p : Params) (cfg : Half) (q : Seq) : StraightProgram .adc 2 (adtrigProgram p cfg q) := by
  intro k act h
  unfold adtrigProgram at h
  split at h <;> cases h
  · exact ⟨by decide, fun _ _ => .refl _⟩
  · exact keepsRegisters_id

theorem adreadProgram_straight (q : Seq) : StraightProgram .adc 2 (adreadProgram q) := by
  intro k act h
  unfold adreadProgram at h
  split at h <;> cases h
  · exact plain_goesOn (by decide) _
  · exact setRes_keepsRegisters _ _ true

theorem admeasProgram_straight (p : Params) (cfg delayMs : Half) (address : BitVec 7) (q : Seq) :
    StraightProgram .adc 5 (admeasProgram p cfg delayMs address q) := by
  intro k act h
  unfold admeasProgram at h
  split at h <;> cases h
  · exact ⟨by decide, fun _ _ => .refl _⟩
  · exact ⟨by decide, rfl⟩
  · exact plain_goesOn (by decide) _
  · exact ⟨by decide, fun _ => rfl, adcPublish_keepsRegisters address q⟩
  · exact keepsRegisters_id

theorem statusToTmp_sameCourse (rd : List Byte) (s : State) : SameCourse (s.seq.get .pxa) ((statusToTmp rd s).seq.get .pxa) :=
  ⟨rfl, rfl, rfl, rfl⟩

theorem modeToTmp_sameCourse (rd : List Byte) (s : State) : SameCourse (s.seq.get .pwm) ((modeToTmp rd s).seq.get .pwm) :=
  ⟨rfl, rfl, rfl, rfl⟩

theorem pxtrigProgram_straight (q : Seq) : StraightProgram .pxa 3 (pxtrigProgram q) := by
  intro k act h
  unfold pxtrigProgram at h
  split at h <;> cases h
  · exact ⟨by decide, statusToTmp_sameCourse⟩
  · exact plain_goesOn (by decide) _
  · exact keepsRegisters_id

theorem pxrdyProgram_straight (q : Seq) : StraightProgram .pxa 2 (pxrdyProgram q) := by
  intro k act h
  unfold pxrdyProgram at h
  split at h <;> cases h
  · exact ⟨by decide, fun _ _ => .refl _⟩
  · exact keepsRegisters_id

theorem pxreadProgram_straight (q : Seq) : StraightProgram .pxa 2 (pxreadProgram q) := by
  intro k act h
  unfold pxreadProgram at h
  split at h <;> cases h
  · exact plain_goesOn (by decide) _
  · exact setRes_keepsRegisters _ _ true

theorem pxledProgram_straight (units : Half) : StraightProgram .pxa 2 (pxledProgram units) := by
  intro k act h
  unfold pxledProgram at h
  split at h <;> cases h
  · exact plain_goesOn (by decide) _
  · exact keepsRegisters_id

theorem ustrigProgram_straight : StraightProgram .usr 2 ustrigProgram := by
  intro k act h
  unfold ustrigProgram at h
  split at h <;> cases h
  · exact plain_goesOn (by decide) _
  · exact keepsRegisters_id

theorem usreadProgram_straight (q : Seq) : StraightProgram .usr 2 (usreadProgram q) := by
  intro k act h
  unfold usreadProgram at h
  split at h <;> cases h
  · exact plain_goesOn (by decide) _
  · exact setRes_keepsRegisters _ _ true

theorem usmeasProgram_straight (q : Seq) : StraightProgram .usr 5 (usmeasProgram q) := by
  intro k act h
  unfold usmeasProgram at h
  split at h <;> cases h
  · exact plain_goesOn (by decide) _
  · exact ⟨by decide, rfl⟩
  · exact plain_goesOn (by decide) _
  · exact ⟨by decide, fun _ => rfl, usrPublish_keepsRegisters q⟩
  · exact keepsRegisters_id

theorem usrCycleProgram_straight (q : Seq) : StraightProgram .usr 5 (usrCycleProgram q) := by
  intro k act h
  unfold usrCycleProgram at h
  split at h <;> cases h
  · exact plain_goesOn (by decide) _
  · exact ⟨by decide, rfl⟩
  · exact plain_goesOn (by decide) _
  · exact ⟨by decide, fun _ => rfl, usrPublish_keepsRegisters q⟩
  · exact keepsRegisters_id

theorem setfreqProgram_straight (v slp rst : Byte) (q : Seq) : StraightProgram .pwm 11 (setfreqProgram v slp rst q) := by
  intro k act h
  unfold setfreqProgram at h
  split at h <;> cases h
  case h_1 | h_5 | h_8 => exact ⟨by decide, modeToTmp_sameCourse⟩
  case h_2 | h_4 | h_6 | h_9 => exact plain_goesOn (by decide) _
  case h_3 | h_7 | h_10 => exact ⟨by decide, rfl⟩
  case h_11 => exact keepsRegisters_id

theorem tickProgram_straight (base : Byte) (on off : Half) (value : Word) :
    StraightProgram .pwm 5 (tickProgram base on off value) := by
  intro k act h
  unfold tickProgram at h
  split at h <;> cases h
  case h_1 | h_2 | h_3 | h_4 => exact plain_goesOn (by decide) _
  case h_5 => exact keepsRegisters_id

theorem modeProgram_straight (byte : Byte → Byte) (q : Seq) : StraightProgram .pwm 4 (modeProgram byte q) := by
  intro k act h
  unfold modeProgram at h
  split at h <;> cases h
  · exact ⟨by decide, modeToTmp_sameCourse⟩
  · exact plain_goesOn (by decide) _
  · exact ⟨by decide, rfl⟩
  · exact keepsRegisters_id

/-- The program of an operation without loops goes straight on. -/
theorem programOf_straight (p : Params) {q : Seq} {d : Slot} (own_slot : q.op.slot = some d) (straight : q.op.loops = false) :
    StraightProgram d q.op.length (programOf p q) := by
  unfold programOf
  cases hq : q.op <;> rw [hq] at own_slot straight <;> cases own_slot
  case adtrig => exact adtrigProgram_straight ..
  case adread => exact adreadProgram_straight ..
  case admeas => exact admeasProgram_straight ..
  case pxtrig => exact pxtrigProgram_straight ..
  case pxrdy => exact pxrdyProgram_straight ..
  case pxread => exact pxreadProgram_straight ..
  case pxled => exact pxledProgram_straight ..
  case ustrig => exact ustrigProgram_straight
  case usread => exact usreadProgram_straight ..
  case usmeas => exact usmeasProgram_straight ..
  case usrCycle => exact usrCycleProgram_straight ..
  case setfreq => exact setfreqProgram_straight ..
  case setpwm | fullon | fulloff | setduty => exact tickProgram_straight ..
  case sleep | wake | restart => exact modeProgram_straight ..
  case adcCycle | pxmeas | pxaCycle => cases straight

/-! ### The ADC cycle (41_codec_adc.md rule R147) -/

section AdcCycle

variable {p : Params} {q : Seq} {k : Nat} {mask : Byte} {delayMs : Half} {address : BitVec 7}

theorem argsOk_adcCycle {q : Seq} (op : q.op = .adcCycle mask delayMs address) :
    ArgsOk p q ↔ q.cursor ≤ 8 ∧ delayMs = p.adcConvDelayMs ∧ address = p.slave .adc ∧
      (q.step ≠ .at 1 → q.step ≠ .at 6 → q.ch.toNat < p.adcNchan) := by
  simp only [ArgsOk, op]

/-- The channel selected is a supported one at or above the cursor. -/
theorem nextChannel_bounds {cursor ch : Nat} (h : nextChannel p mask cursor = some ch) :
    cursor ≤ ch ∧ ch < 8 ∧ ch < p.adcNchan := by
  rw [nextChannel_eq_head?] at h
  obtain ⟨⟨small, supported⟩, above, -⟩ := mem_enabledFrom.mp (List.mem_of_mem_head? h)
  exact ⟨above, small, supported⟩

/-- Step 1 goes on with a later channel, or to the end. -/
theorem adcCycleSelect_moves (ok : SeqOk p .adc q) (op : q.op = .adcCycle mask delayMs address) (at_1 : q.step = .at 1)
    {s : State} (hs : s.seq.get .adc = q.goto 2) : Moves p .adc q ((adcCycleSelect p mask q s).seq.get .adc) := by
  obtain ⟨cursor, delay, addr, -⟩ := (argsOk_adcCycle op).mp ok.args
  have hs : s.seq.adc = q.goto 2 := hs
  unfold adcCycleSelect
  split
  · next ch next =>
    obtain ⟨above, small, supported⟩ := nextChannel_bounds next
    have selected : (s.setSeq .adc { s.seq.adc with ch := BitVec.ofNat 8 ch, cursor := ch + 1, step := .at 2 }).seq.get .adc =
        q.selecting ch := by simp [hs, Seq.selecting, Seq.goto]
    rw [selected]
    refine ok.moves_to at_1 rfl rfl rfl (by decide) (by simp [op, Op.length])
      ((argsOk_adcCycle (q := q.selecting ch) op).mpr ⟨small, delay, addr, fun _ _ => (Nat.mod_le _ _).trans_lt supported⟩) ?_
    rw [stepsLeftAt_adcCycle (q := q.selecting ch) op (by decide) (by decide), stepsLeftAt_adcCycle_select op]
    show 6 - 2 + (5 * (8 - (ch + 1)) + 2) < 5 * (8 - q.cursor) + 2
    omega
  · have ended : (s.goto .adc 6).seq.get .adc = q.goto 6 := by simp [hs, Seq.goto]
    rw [ended]
    refine ok.moves_to at_1 rfl rfl rfl (by decide) (by simp [op, Op.length])
      ((argsOk_adcCycle (q := q.goto 6) op).mpr ⟨cursor, delay, addr, fun _ not_end => absurd rfl not_end⟩) ?_
    rw [stepsLeftAt_adcCycle_retire (q := q.goto 6) op, stepsLeftAt_adcCycle_select op, adcCycleLeft]
    omega

theorem step_ne_at {q : Seq} {k j : Nat} (at_k : q.step = .at k) (h : k ≠ j) : q.step ≠ .at j := by
  rw [at_k]
  exact fun same => h (Position.at.inj same)

/-- Within the measurement of a channel, a step goes to the next, and after the last to the selection. -/
theorem adcCycle_moves_on (ok : SeqOk p .adc q) (op : q.op = .adcCycle mask delayMs address) (at_k : q.step = .at k)
    (low : 2 ≤ k) (high : k ≤ 5) (rd : List Byte) : Moves p .adc q ((q.withRd rd).goto (if k = 5 then 1 else k + 1)) := by
  obtain ⟨cursor, delay, addr, supported⟩ := (argsOk_adcCycle op).mp ok.args
  have channel := supported (step_ne_at at_k (by omega)) (step_ne_at at_k (by omega))
  refine ok.moves_to at_k rfl rfl rfl (by split_ifs <;> omega) (by rw [op, Op.length]; split_ifs <;> omega)
    ((argsOk_adcCycle (q := (q.withRd rd).goto _) op).mpr ⟨cursor, delay, addr, fun _ _ => channel⟩) ?_
  rw [stepsLeftAt_adcCycle op low high]
  split_ifs with last
  · rw [stepsLeftAt_adcCycle_select (q := (q.withRd rd).goto 1) op]
    exact Nat.lt_add_of_pos_left (by omega)
  · rw [stepsLeftAt_adcCycle (q := (q.withRd rd).goto (k + 1)) op (by omega) (by omega)]
    exact Nat.add_lt_add_right (by omega) _

theorem adcCycle_moves_to_failing (ok : SeqOk p .adc q) (op : q.op = .adcCycle mask delayMs address) (at_k : q.step = .at k)
    (low : 2 ≤ k) (high : k ≤ 5) : Moves p .adc q q.failing := by
  obtain ⟨cursor, delay, addr, supported⟩ := (argsOk_adcCycle op).mp ok.args
  have channel := supported (step_ne_at at_k (by omega)) (step_ne_at at_k (by omega))
  refine ok.moves_to_failExit rfl rfl nofun nofun
    ((argsOk_adcCycle (q := q.failing) op).mpr ⟨cursor, delay, addr, fun _ _ => channel⟩) ?_
  rw [seqLeft_at at_k, stepsLeftAt_adcCycle op low high, adcCycleLeft]
  omega

theorem adcCycleProgram_proceeds {act : Action} (ok : SeqOk p .adc q) (op : q.op = .adcCycle mask delayMs address)
    (at_k : q.step = .at k) (h : adcCycleProgram p mask delayMs address q k = some act) : act.Proceeds p .adc q k := by
  unfold adcCycleProgram at h
  split at h <;> cases h
  case h_1 => exact ⟨fun s hs => adcCycleSelect_moves ok op at_k hs, adcCycleSelect_keepsRegisters p mask q⟩
  case h_2 | h_4 =>
    refine ⟨adcCycle_moves_to_failing ok op at_k (by decide) (by decide), fun _ bytes s hs => ?_⟩
    exact hs ▸ adcCycle_moves_on ok op at_k (by decide) (by decide) bytes
  case h_3 => exact adcCycle_moves_on ok op at_k (by decide) (by decide) q.rd
  case h_5 =>
    refine ⟨fun s hs => ?_, (adcPublish_keepsRegisters address q).goto .adc 1⟩
    rw [State.goto_seq, PerSlot.get_set_same, show (adcPublish address q s).seq.get .adc = q.goto 6 from hs]
    exact adcCycle_moves_on ok op at_k (by decide) (by decide) q.rd
  case h_6 => exact keepsRegisters_id

end AdcCycle

/-! ### The measurement of one kind (42_codec_pxa.md rules R162, R171) -/

/-- `q` is at the `i`-th step of the measurement of one kind that begins at step `b` of its program, and may move within it and to
the fail-exit. -/
structure InRound (p : Params) (q : Seq) (b i : Nat) : Prop where
  budget : i = 3 ∨ i = 4 → q.n ≠ 0#16
  moves : ∀ (q' : Seq) (j : Nat), q'.op = q.op → q'.exc = q.exc → q'.cursor = q.cursor → q'.step = .at (b + j) → j ≤ 6 →
    (j = 3 ∨ j = 4 → q'.n ≠ 0#16) → roundLeft q'.n.toNat j < roundLeft q.n.toNat i → Moves p .pxa q q'
  exits : ∀ q' : Seq, q'.op = q.op → q'.step = .failExit → q'.exc ≠ .none → Moves p .pxa q q'

theorem statusToTmp_seq (rd : List Byte) (s : State) :
    (statusToTmp rd s).seq.get .pxa = { s.seq.get .pxa with tmp := byteAt rd 0 } := rfl

theorem waitTest_seq (j : Nat) (q : Seq) (s : State) :
    (waitTest j q s).seq.get .pxa = if q.n = 0#16 then (s.seq.get .pxa).expired else (s.seq.get .pxa).goto j := by
  unfold waitTest
  split_ifs <;> rfl

theorem waitCheck_seq (i j : Nat) (q : Seq) (rd : List Byte) (s : State) :
    (waitCheck i j q rd s).seq.get .pxa =
      if isReady q.k (byteAt rd 0) = true then { s.seq.get .pxa with n := q.n - 1#16 }.goto i
      else if q.n - 1#16 = 0#16 then { s.seq.get .pxa with n := q.n - 1#16 }.expired
      else { s.seq.get .pxa with n := q.n - 1#16 }.goto j := by
  unfold waitCheck
  dsimp only
  split_ifs <;> rfl

/-- One status read less is left after a status read. -/
theorem toNat_sub_one {n : Half} (left : n ≠ 0#16) : (n - 1#16).toNat + 1 = n.toNat := by
  have pos : n.toNat ≠ 0 := fun h => left (BitVec.eq_of_toNat_eq h)
  have := n.isLt
  rw [BitVec.toNat_sub, BitVec.toNat_ofNat]
  omega

namespace InRound

variable {p : Params} {q : Seq} {b k : Nat}

theorem fails {i : Nat} (h : InRound p q b i) : Moves p .pxa q q.failing := h.exits q.failing rfl rfl nofun

theorem expires {i : Nat} (h : InRound p q b i) {q' : Seq} (op : q'.op = q.op) : Moves p .pxa q q'.expired :=
  h.exits q'.expired op rfl nofun

theorem triggerRead (h : InRound p q b 0) (at_k : k = b) : (Action.bus framePxaStatus statusToTmp).Proceeds p .pxa q k := by
  subst at_k
  refine ⟨h.fails, fun rd bytes s hs => ?_⟩
  rw [statusToTmp_seq, hs]
  exact h.moves _ 1 rfl rfl rfl rfl (by decide) (by simp) (Nat.lt_succ_self _)

theorem triggerWrite (h : InRound p q b 1) (at_k : k = b + 1) (tmp : Byte) :
    (Action.plain (framePxaTrigger tmp q.k)).Proceeds p .pxa q k := by
  subst at_k
  exact ⟨h.fails, fun _ bytes s hs => hs ▸ h.moves _ 2 rfl rfl rfl rfl (by decide) (by simp) (Nat.lt_succ_self _)⟩

theorem test (h : InRound p q b 2) (at_k : k = b + 2) {j : Nat} (at_j : j = b + 3) :
    (Action.internal (waitTest j q)).Proceeds p .pxa q k := by
  subst at_k at_j
  refine ⟨fun s hs => ?_, waitTest_keepsRegisters _ q⟩
  rw [waitTest_seq, hs]
  split_ifs with none_left
  · exact h.expires rfl
  · exact h.moves _ 3 rfl rfl rfl rfl (by decide) (fun _ => none_left) (Nat.lt_succ_self _)

theorem check (h : InRound p q b 3) (at_k : k = b + 3) {i j : Nat} (at_i : i = b + 5) (at_j : j = b + 4) :
    (Action.bus framePxaStatus (waitCheck i j q)).Proceeds p .pxa q k := by
  subst at_k at_i at_j
  have one_less := toNat_sub_one (h.budget (.inl rfl))
  refine ⟨h.fails, fun rd bytes s hs => ?_⟩
  rw [waitCheck_seq, hs]
  split_ifs with ready none_left
  · refine h.moves _ 5 rfl rfl rfl rfl (by decide) (by simp) ?_
    show 2 < 2 * q.n.toNat + 1
    omega
  · exact h.expires rfl
  · refine h.moves _ 4 rfl rfl rfl rfl (by decide) (fun _ => none_left) ?_
    show 2 * (q.n - 1#16).toNat + 2 < 2 * q.n.toNat + 1
    omega

theorem delay (h : InRound p q b 4) (at_k : k = b + 4) (ms : Half) {j : Nat} (at_j : j = b + 3) :
    (Action.delay ms j).Proceeds p .pxa q k := by
  subst at_k at_j
  exact h.moves (q.goto (b + 3)) 3 rfl rfl rfl rfl (by decide) (fun _ => h.budget (.inr rfl)) (Nat.lt_succ_self _)

theorem result (h : InRound p q b 5) (at_k : k = b + 5) : (Action.plain (framePxaResult q.k)).Proceeds p .pxa q k := by
  subst at_k
  exact ⟨h.fails, fun _ bytes s hs => hs ▸ h.moves _ 6 rfl rfl rfl rfl le_rfl (by simp) (Nat.lt_succ_self _)⟩

end InRound

theorem pxaPublish_seq (p : Params) (q : Seq) (s : State) : (pxaPublish p q s).seq = s.seq := by
  unfold pxaPublish
  cases q.k <;> rfl

/-! ### `PXMEAS` (rule R170) -/

section Pxmeas

variable {p : Params} {q : Seq} {k : Nat} {gap : Half}

theorem argsOk_pxmeas {q : Seq} (op : q.op = .pxmeas gap) :
    ArgsOk p q ↔ (q.step = .at 4 ∨ q.step = .at 5 → q.n ≠ 0#16) := by
  simp only [ArgsOk, op]

theorem pxmeas_inRound (ok : SeqOk p .pxa q) (op : q.op = .pxmeas gap) {i : Nat} (at_k : q.step = .at (1 + i)) (inside : i ≤ 6) :
    InRound p q 1 i where
  budget h := (argsOk_pxmeas op).mp ok.args (by rcases h with rfl | rfl <;> simp [at_k])
  moves q' j op' exc _ at_j low loop less := by
    refine ok.moves_to at_k op' exc at_j (by omega) (by rw [op, Op.length]; omega)
      ((argsOk_pxmeas (op'.trans op)).mpr fun h => loop (by simp only [at_j, Position.at.injEq] at h; omega)) ?_
    rw [stepsLeftAt_pxmeas (op'.trans op) low, stepsLeftAt_pxmeas op inside]
    exact Nat.add_lt_add_left less 1
  exits q' op' at_exit pending := by
    refine ok.moves_to_failExit op' at_exit pending (fun _ => rfl) ((argsOk_pxmeas (op'.trans op)).mpr (by simp [at_exit])) ?_
    have := roundLeft_pos q.n.toNat i
    rw [seqLeft_at at_k, stepsLeftAt_pxmeas op inside]
    omega

theorem pxmeasProgram_proceeds {act : Action} (ok : SeqOk p .pxa q) (op : q.op = .pxmeas gap) (at_k : q.step = .at k)
    (h : pxmeasProgram p gap q k = some act) : act.Proceeds p .pxa q k := by
  unfold pxmeasProgram at h
  split at h <;> cases h
  · exact (pxmeas_inRound ok op at_k (by decide)).triggerRead rfl
  · exact (pxmeas_inRound ok op at_k (by decide)).triggerWrite rfl q.tmp
  · exact (pxmeas_inRound ok op at_k (by decide)).test rfl rfl
  · exact (pxmeas_inRound ok op at_k (by decide)).check rfl rfl rfl
  · exact (pxmeas_inRound ok op at_k (by decide)).delay rfl gap rfl
  · exact (pxmeas_inRound ok op at_k (by decide)).result rfl
  · refine ⟨fun s hs => ?_, pxaPublish_keepsRegisters p q⟩
    rw [pxaPublish_seq, hs]
    refine ok.moves_to at_k rfl rfl rfl (by decide) (by simp [op, Op.length])
      ((argsOk_pxmeas (q := q.goto 8) op).mpr (by simp [Seq.goto])) ?_
    rw [stepsLeftAt_pxmeas_retire (q := q.goto 8) op, stepsLeftAt_pxmeas op (i := 6) le_rfl]
    exact Nat.lt_succ_self 1
  · exact keepsRegisters_id

end Pxmeas

/-! ### The PXA cycle (rule R174) -/

section PxaCycle

variable {p : Params} {q : Seq} {k : Nat} {kinds : BitVec 2} {pmAmb pmProx gap : Half}

theorem argsOk_pxaCycle {q : Seq} (op : q.op = .pxaCycle kinds pmAmb pmProx gap) :
    ArgsOk p q ↔ (q.step = .at 5 ∨ q.step = .at 6 → q.n ≠ 0#16) := by
  simp only [ArgsOk, op]

theorem pxaCycle_inRound (ok : SeqOk p .pxa q) (op : q.op = .pxaCycle kinds pmAmb pmProx gap) {i : Nat}
    (at_k : q.step = .at (2 + i)) (inside : i ≤ 6) : InRound p q 2 i where
  budget h := (argsOk_pxaCycle op).mp ok.args (by rcases h with rfl | rfl <;> simp [at_k])
  moves q' j op' exc cursor at_j low loop less := by
    refine ok.moves_to at_k op' exc at_j (by omega) (by rw [op, Op.length]; omega)
      ((argsOk_pxaCycle (op'.trans op)).mpr fun h => loop (by simp only [at_j, Position.at.injEq] at h; omega)) ?_
    rw [stepsLeftAt_pxaCycle (op'.trans op) low, stepsLeftAt_pxaCycle op inside, cursor]
    exact Nat.add_lt_add_left less _
  exits q' op' at_exit pending := by
    refine ok.moves_to_failExit op' at_exit pending (fun _ => rfl)
      ((argsOk_pxaCycle (op'.trans op)).mpr (by simp [at_exit])) ?_
    have := roundLeft_pos q.n.toNat i
    rw [seqLeft_at at_k, stepsLeftAt_pxaCycle op inside, pxaCycleLeft]
    omega

theorem pxaCycleSelect_seq (kinds : BitVec 2) (pmAmb pmProx : Half) (q : Seq) (s : State) :
    (pxaCycleSelect kinds pmAmb pmProx q s).seq.get .pxa =
      if (q.cursor = 0 && kinds.getLsbD 0) = true then
        { s.seq.get .pxa with k := .amb, n := pmAmb, cursor := 1, step := .at 2 }
      else if (decide (q.cursor ≤ 1) && kinds.getLsbD 1) = true then
        { s.seq.get .pxa with k := .prox, n := pmProx, cursor := 2, step := .at 2 }
      else (s.seq.get .pxa).goto 9 := by
  unfold pxaCycleSelect
  split_ifs <;> rfl

/-- Step 1 goes on with a later kind, or to the end. -/
theorem pxaCycleSelect_moves (ok : SeqOk p .pxa q) (op : q.op = .pxaCycle kinds pmAmb pmProx gap) (at_1 : q.step = .at 1)
    {s : State} (hs : s.seq.get .pxa = q.goto 2) :
    Moves p .pxa q ((pxaCycleSelect kinds pmAmb pmProx q s).seq.get .pxa) := by
  have to_round (q' : Seq) (op' : q'.op = q.op) (exc : q'.exc = q.exc) (at_2 : q'.step = .at 2)
      (less : pxaCycleLeft pmAmb pmProx q'.cursor + (2 * q'.n.toNat + 4) < pxaCycleLeft pmAmb pmProx q.cursor) :
      Moves p .pxa q q' := by
    refine ok.moves_to at_1 op' exc at_2 (by decide) (by simp [op, Op.length])
      ((argsOk_pxaCycle (op'.trans op)).mpr (by simp [at_2])) ?_
    rwa [stepsLeftAt_pxaCycle_select op, stepsLeftAt_pxaCycle (i := 0) (op'.trans op) (by decide)]
  rw [pxaCycleSelect_seq, hs]
  split_ifs with amb prox
  · obtain ⟨cursor, -⟩ : q.cursor = 0 ∧ _ := by simpa only [Bool.and_eq_true, decide_eq_true_eq] using amb
    refine to_round _ rfl rfl rfl ?_
    show 2 + 0 + (2 * pmProx.toNat + 5) + (2 * pmAmb.toNat + 4) < pxaCycleLeft pmAmb pmProx q.cursor
    rw [pxaCycleLeft, cursor, if_pos rfl, if_pos (Nat.zero_le 1)]
    omega
  · obtain ⟨cursor, -⟩ : q.cursor ≤ 1 ∧ _ := by simpa only [Bool.and_eq_true, decide_eq_true_eq] using prox
    refine to_round _ rfl rfl rfl ?_
    show 2 + 0 + 0 + (2 * pmProx.toNat + 4) < pxaCycleLeft pmAmb pmProx q.cursor
    rw [pxaCycleLeft, if_pos cursor]
    omega
  · refine ok.moves_to at_1 rfl rfl rfl (by decide) (by simp [op, Op.length])
      ((argsOk_pxaCycle (q := (q.goto 2).goto 9) op).mpr (by simp [Seq.goto])) ?_
    rw [stepsLeftAt_pxaCycle_retire (q := (q.goto 2).goto 9) op, stepsLeftAt_pxaCycle_select op, pxaCycleLeft]
    omega

theorem pxaCycleProgram_proceeds {act : Action} (ok : SeqOk p .pxa q) (op : q.op = .pxaCycle kinds pmAmb pmProx gap)
    (at_k : q.step = .at k) (h : pxaCycleProgram p kinds pmAmb pmProx gap q k = some act) : act.Proceeds p .pxa q k := by
  unfold pxaCycleProgram at h
  split at h <;> cases h
  · exact ⟨fun s hs => pxaCycleSelect_moves ok op at_k hs, pxaCycleSelect_keepsRegisters kinds pmAmb pmProx q⟩
  · exact (pxaCycle_inRound ok op at_k (by decide)).triggerRead rfl
  · exact (pxaCycle_inRound ok op at_k (by decide)).triggerWrite rfl q.tmp
  · exact (pxaCycle_inRound ok op at_k (by decide)).test rfl rfl
  · exact (pxaCycle_inRound ok op at_k (by decide)).check rfl rfl rfl
  · exact (pxaCycle_inRound ok op at_k (by decide)).delay rfl gap rfl
  · exact (pxaCycle_inRound ok op at_k (by decide)).result rfl
  · refine ⟨fun s hs => ?_, (pxaPublish_keepsRegisters p q).goto .pxa 1⟩
    rw [State.goto_seq, PerSlot.get_set_same, pxaPublish_seq, hs]
    refine ok.moves_to at_k rfl rfl rfl (by decide) (by simp [op, Op.length])
      ((argsOk_pxaCycle (q := q.goto 1) op).mpr (by simp [Seq.goto])) ?_
    rw [stepsLeftAt_pxaCycle op (i := 6) le_rfl]
    exact (stepsLeftAt_pxaCycle_select (q := q.goto 1) op).trans_lt (Nat.lt_succ_self _)
  · exact keepsRegisters_id

end PxaCycle

/-! ### Every program -/

/-- Every action at the position of a legal sequencer proceeds. -/
theorem programOf_proceeds {p : Params} {d : Slot} {q : Seq} {k : Nat} {act : Action} (ok : SeqOk p d q) (at_k : q.step = .at k)
    (h : programOf p q k = some act) : act.Proceeds p d q k := by
  have own_slot := ok.own_slot
  by_cases straight : q.op.loops = false
  · exact (programOf_straight p own_slot straight h).proceeds ok straight at_k
  · unfold programOf at h
    cases op : q.op <;> rw [op] at own_slot straight h
    case adcCycle =>
      cases own_slot
      exact adcCycleProgram_proceeds ok op at_k h
    case pxmeas =>
      cases own_slot
      exact pxmeasProgram_proceeds ok op at_k h
    case pxaCycle =>
      cases own_slot
      exact pxaCycleProgram_proceeds ok op at_k h
    all_goals exact absurd rfl straight

/-- A program has an action at each of its positions. -/
theorem exists_action (p : Params) {q : Seq} {k : Nat} (low : 1 ≤ k) (high : k ≤ q.op.length) :
    ∃ act, programOf p q k = some act := by
  unfold programOf
  cases op : q.op <;> rw [op, Op.length] at high
  case idle => omega
  all_goals interval_cases k <;> exact ⟨_, rfl⟩

end Sys2Proof.Machine
end

section
/-!
The invariant along a run (47_poll.md rule R328) and the end of every operation (rule R326): what a micro-step of a busy slot does,
then what any input does, then schedules.
-/

namespace Sys2Proof.Machine

/-! ### One micro-step -/

/-- `t` is `s` after a micro-step of the busy slot `d`: the operation moved on, or it ended. -/
inductive MovesOrEnds (p : Params) (d : Slot) (s t : State) : Prop
  | moves (busy : t.guard.get d = true) (moves : Moves p d (s.seq.get d) (t.seq.get d))
  | ends (idle : t.guard.get d = false) (op : (t.seq.get d).op = .idle)

theorem State.latchRead_goto_seq (s : State) (d : Slot) (op : BusOp) (rd : List Byte) (k : Nat) :
    ∃ bytes, ((s.latchRead d op rd).goto d k).seq.get d = ((s.seq.get d).withRd bytes).goto k := by
  cases op with
  | write => exact ⟨(s.seq.get d).rd, by simp [State.latchRead, Seq.withRd, Seq.goto]⟩
  | read | writeThenRead => exact ⟨rd, by simp [State.latchRead, Seq.withRd, Seq.goto]⟩

theorem Ends.guard_get {d : Slot} {s t : State} (h : Ends d s t) : t.guard.get d = false := by
  rw [h.guard, PerSlot.get_set_same]

theorem State.retire_op (s : State) (d : Slot) (final : State → State) (value : State → Word) :
    ((s.retire d final value).seq.get d).op = .idle := by
  simp [State.retire, State.answer_eq_logged]

theorem State.failExit_op (s : State) (d : Slot) (kind : ExcKind) (status : Status) (value : Word) :
    ((s.failExit d kind status value).seq.get d).op = .idle := by
  simp [State.failExit, State.answer_eq_logged]

section Performed

variable {p : Params} {d : Slot} {s : State} {k : Nat} {ans : BusAnswer} {act : Action}

/-- An action that proceeds moves the operation on or ends it. -/
theorem perform_movesOrEnds (busy : s.guard.get d = true) (confined : act.Confined d)
    (proceeds : act.Proceeds p d (s.seq.get d) k) : MovesOrEnds p d s (s.perform d k ans act) := by
  cases act with
  | bus op after =>
    obtain ⟨fails, goes⟩ := proceeds
    refine .moves (by rw [(perform_bus_continues confined s k ans).guard, busy]) ?_
    cases ha : answerBytes op.asked ans with
    | some rd =>
      rw [State.perform_bus_ok after ha]
      obtain ⟨bytes, hs⟩ := (s.emit (.bus d op (some rd))).latchRead_goto_seq d op rd (k + 1)
      exact goes rd bytes _ hs
    | none =>
      rw [State.perform_bus_fail after ha, State.raise_seq, PerSlot.get_set_same]
      exact fails
  | delay ms next =>
    refine .moves busy ?_
    rw [State.perform_delay, State.goto_seq, PerSlot.get_set_same]
    exact proceeds
  | internal act =>
    refine .moves (by rw [(perform_internal_continues confined s k ans).guard, busy]) (proceeds.1 _ ?_)
    rw [State.goto_seq, PerSlot.get_set_same]
    rfl
  | retire final value => exact .ends (retire_ends confined s).guard_get (s.retire_op d final value)

theorem perform_registersOk (registers : RegistersOk s) (confined : act.Confined d)
    (proceeds : act.Proceeds p d (s.seq.get d) k) : RegistersOk (s.perform d k ans act) := by
  cases act with
  | bus op after =>
    cases ha : answerBytes op.asked ans with
    | some rd =>
      rw [State.perform_bus_ok after ha]
      exact (((registers.logged [.bus d op (some rd)]).latchRead d op rd).setSeq d _).writes_busLine (confined rd)
    | none =>
      rw [State.perform_bus_fail after ha]
      exact (registers.logged [.bus d op none]).setSeq d _
  | delay ms next => exact (registers.logged [.delay d ms]).setSeq d _
  | internal act => exact proceeds.2 _ (registers.setSeq d _)
  | retire final value => exact ((proceeds s registers).release d).answer _ _ _

end Performed

section MicroStep

variable {p : Params} {d : Slot} {s t : State} {ans : BusAnswer}

/-- A micro-step of a slot that runs a legal operation moves the operation on or ends it. -/
theorem microStep_movesOrEnds (busy : s.guard.get d = true) (ok : SeqOk p d (s.seq.get d))
    (h : microStep p d ans s = .next t) : MovesOrEnds p d s t := by
  rcases microStep_cases h with ⟨idle, -⟩ | ⟨-, own_slot, ⟨k, act, at_k, hact, rfl⟩ | ⟨-, -, rfl⟩ | ⟨-, -, rfl⟩⟩
  · rw [busy] at idle
    cases idle
  · exact perform_movesOrEnds busy (programOf_confined p own_slot hact) (programOf_proceeds ok at_k hact)
  · exact .ends (failExit_ends ..).guard_get (s.failExit_op ..)
  · exact .ends (failExit_ends ..).guard_get (s.failExit_op ..)

theorem microStep_registersOk (inv : Inv p s) (h : microStep p d ans s = .next t) : RegistersOk t := by
  have registers := inv.registersOk
  rcases microStep_cases h with ⟨-, rfl⟩ | ⟨busy, own_slot, ⟨k, act, at_k, hact, rfl⟩ | ⟨-, -, rfl⟩ | ⟨-, -, rfl⟩⟩
  · exact registers
  · exact perform_registersOk registers (programOf_confined p own_slot hact) (programOf_proceeds (inv.seqOk busy) at_k hact)
  · exact registers.failExit ..
  · exact registers.failExit ..

theorem MovesOrEnds.slotOk (h : MovesOrEnds p d s t) : SlotOk p d t := by
  rcases h with ⟨busy, moves⟩ | ⟨idle, op⟩
  · exact .running busy moves.ok
  · exact .idle idle op

theorem microStep_inv (inv : Inv p s) (h : microStep p d ans s = .next t) : Inv p t := by
  refine .of_parts (microStep_registersOk inv h) fun e => ?_
  by_cases he : e = d
  · subst he
    cases hg : s.guard.get e with
    | true => exact (microStep_movesOrEnds hg (inv.seqOk hg) h).slotOk
    | false =>
      rw [microStep_idle ans hg] at h
      cases h
      exact inv.slotOk e
  · obtain ⟨guard, seq⟩ := microStep_other_slot he h
    exact (inv.slotOk e).of_eq guard seq

/-- A micro-step of an idle slot or of a legal operation does not fault (log entry 11). -/
theorem exists_microStep (inv : Inv p s) (d : Slot) (ans : BusAnswer) : ∃ t, microStep p d ans s = .next t := by
  cases busy : s.guard.get d with
  | false => exact ⟨s, microStep_idle ans busy⟩
  | true =>
    obtain ⟨own_slot, position, -⟩ := inv.seqOk busy
    rcases hstep : (s.seq.get d).step with k | _
    · rw [PositionOk, hstep] at position
      obtain ⟨low, high, -⟩ := position
      obtain ⟨act, hact⟩ := exists_action p low high
      exact ⟨_, microStep_at ans busy own_slot hstep hact⟩
    · rw [PositionOk, hstep] at position
      cases pending : (s.seq.get d).exc with
      | none => exact absurd pending position.1
      | busError => exact ⟨_, microStep_failExit_busError ans busy own_slot hstep pending⟩
      | timeout => exact ⟨_, microStep_failExit_timeout ans busy own_slot hstep pending⟩

end MicroStep

/-! ### Any input -/

theorem deliver_inv {i : Input} {s t : State} (inv : Inv Config.params s) (h : deliver i s = .next t) : Inv Config.params t := by
  cases i with
  | cmd f => exact acceptFrame_inv inv h
  | tick d =>
    cases h
    exact tickStep_inv inv d
  | micro d ans => exact microStep_inv inv h
  | reset =>
    cases h
    exact resetStep_inv s

/-- Taking an input touches the model's own fields only. -/
theorem takeInput_inv {s : State} (inv : Inv Config.params s) : Inv Config.params (takeInput s).2 := by
  unfold takeInput
  split <;> exact { inv with }

/-- Settles O11, input by input. -/
theorem invariantKeptByStep : Obligations.InvariantKeptByStep := fun _ _ inv h => deliver_inv (takeInput_inv inv) h

theorem exists_acceptFrame (f : Frame) (s : State) : ∃ t, acceptFrame f s = .next t := by
  cases hf : decode f with
  | ok i =>
    obtain ⟨t, ht, -⟩ := exec_answersOrStarts i s
    exact ⟨t, (acceptFrame_of_decode s hf).trans ht⟩
  | error e => exact ⟨s.respond (opcodeOf f) .illegal 0#32, by simp only [acceptFrame, hf]⟩

/-- Settles O12: only a micro-step can fault, and of a legal sequencer it does not. -/
theorem noInputStopsTheBlock : Obligations.NoInputStopsTheBlock := by
  intro i s inv
  cases i with
  | cmd f => exact exists_acceptFrame f s
  | tick d => exact ⟨_, rfl⟩
  | micro d ans => exact exists_microStep inv d ans
  | reset => exact ⟨_, rfl⟩

/-! ### A stopped and idle slot (rule R328 I6) -/

/-- Slot `d` is stopped and idle. -/
structure Quiet (d : Slot) (s : State) : Prop where
  stopped : s.stopped.get d = true
  idle : s.guard.get d = false

section Quiet

variable {d : Slot} {s t : State}

/-- The start of another slot leaves a quiet slot quiet. -/
theorem Quiet.of_start (quiet : Quiet d s) {e : Slot} (he : d ≠ e) (b : Bool) (q : Seq) :
    Quiet d ((s.setGuard e b).setSeq e q) := ⟨quiet.stopped, by simpa [he] using quiet.idle⟩

theorem Quiet.startCommand (quiet : Quiet d s) (e : Slot) (opcode : Byte) (latch : Seq → Seq) :
    Quiet d (s.startCommand e opcode latch) := by
  rcases s.startCommand_cases e opcode latch with ⟨-, h⟩ | ⟨-, -, h⟩ | ⟨free, h⟩ <;> rw [h]
  · exact { quiet with }
  · exact { quiet with }
  · refine quiet.of_start ?_ true _
    rintro rfl
    have stopped := quiet.stopped
    rw [free.1] at stopped
    cases stopped

/-- A command that uses no slot clears no stopped bit (10_state.md rule R24). -/
theorem exec_immediate_stopped {i : Instr} (hi : commandSlot i = none) (stopped : s.stopped.get d = true)
    (h : exec i s = .next t) : t.stopped.get d = true := by
  cases i with
  | cfgw reg val =>
    rw [exec_cfgw_eq, State.writeControl_eq] at h
    split_ifs at h <;> cases h <;> exact stopped
  | cfgr reg =>
    rw [exec_cfgr_eq] at h
    cases h
    exact stopped
  | start slot interval =>
    simp only [exec, execStart] at h
    split at h
    · cases h
      exact stopped
    · split_ifs at h <;> cases h <;> exact stopped
  | stop slot =>
    cases h
    have kept : (s.stopped.set slot true).get d = true := by
      rw [PerSlot.get_set]
      split_ifs
      · rfl
      · exact stopped
    cases slot <;> exact kept
  | crcv data crc quirk strict =>
    simp only [exec, execCrcv] at h
    split_ifs at h <;> cases h <;> exact stopped
  | _ => cases hi

theorem exec_keeps_quiet (quiet : Quiet d s) {i : Instr} (h : exec i s = .next t) : Quiet d t := by
  cases hi : commandSlot i with
  | none =>
    obtain ⟨u, hu, -, guard⟩ := exec_immediate_frame hi s
    obtain rfl : u = t := Host.Outcome.next.inj (hu.symm.trans h)
    exact ⟨exec_immediate_stopped hi quiet.stopped h, guard ▸ quiet.idle⟩
  | some e =>
    rcases exec_slotCommand_cases hi h with ⟨es, rfl⟩ | ⟨es, rfl⟩ | ⟨latch, rfl, -⟩
    · exact { quiet with }
    · exact { quiet with }
    · exact quiet.startCommand e _ latch

/-- A tick finds the timer of a stopped slot off (rule R328 I2). -/
theorem tickStep_keeps_quiet {p : Params} (quiet : Quiet d s) (inv : Inv p s) (e : Sensor) : Quiet d (tickStep p e s) := by
  rcases tickStep_cases p e s with ⟨-, h⟩ | ⟨-, -, h⟩ | ⟨enabled, -, h⟩ <;> rw [h]
  · exact quiet
  · exact { quiet with }
  · refine quiet.of_start ?_ true _
    rintro rfl
    rw [inv.stopped_timer_off e quiet.stopped] at enabled
    cases enabled

theorem microStep_keeps_quiet {p : Params} (quiet : Quiet d s) {e : Slot} {ans : BusAnswer} (h : microStep p e ans s = .next t) :
    Quiet d t := by
  refine ⟨(congrArg (fun c : Settings => c.stopped.get d) (microStep_settings h)).trans quiet.stopped, ?_⟩
  by_cases he : d = e
  · subst he
    rw [microStep_idle ans quiet.idle] at h
    cases h
    exact quiet.idle
  · exact (microStep_other_slot he h).1.trans quiet.idle

theorem deliver_keeps_quiet (quiet : Quiet d s) (inv : Inv Config.params s) {i : Input} (not_reset : i ≠ .reset)
    (h : deliver i s = .next t) : Quiet d t := by
  cases i with
  | cmd f =>
    cases hf : decode f with
    | ok i => exact exec_keeps_quiet quiet ((acceptFrame_of_decode s hf).symm.trans h)
    | error e =>
      simp only [deliver, acceptFrame, hf] at h
      cases h
      exact { quiet with }
  | tick e =>
    cases h
    exact tickStep_keeps_quiet quiet inv e
  | micro e ans => exact microStep_keeps_quiet quiet h
  | reset => exact absurd rfl not_reset

/-- An input but a reset issues no transaction of an idle slot. -/
theorem deliver_idle_transactions (inv : Inv Config.params s) (idle : s.guard.get d = false) {i : Input} (not_reset : i ≠ .reset)
    (h : deliver i s = .next t) : t.trace.filter (TraceEntry.isBusOf d) = s.trace.filter (TraceEntry.isBusOf d) := by
  rcases deliver_silent_or_transacts inv not_reset h with ⟨es, trace, silent⟩ | ⟨e, ans, -, busy, op, a, -, trace⟩
  · rw [trace, List.filter_append, filter_isBusOf_of_silent silent, List.append_nil]
  · have he : e ≠ d := by
      rintro rfl
      rw [idle] at busy
      cases busy
    simp [trace, TraceEntry.isBusOf, he]

end Quiet

/-- Settles O14, by induction on the inputs. -/
theorem stoppedIdleSlotStaysQuiet : Obligations.StoppedIdleSlotStaysQuiet := by
  intro d is s inv stopped idle no_reset
  have quiet : Quiet d s := ⟨stopped, idle⟩
  clear stopped idle
  induction is generalizing s with
  | nil => exact ⟨s, rfl, quiet.stopped, quiet.idle, rfl⟩
  | cons i is ih =>
    rw [List.mem_cons, not_or] at no_reset
    obtain ⟨not_reset, no_reset⟩ := no_reset
    obtain ⟨t, ht⟩ := noInputStopsTheBlock i s inv
    obtain ⟨u, hu, stopped, idle, transactions⟩ :=
      ih t (deliver_inv inv ht) no_reset (deliver_keeps_quiet quiet inv (Ne.symm not_reset) ht)
    exact ⟨u, (deliverAll_cons is ht).trans hu, stopped, idle,
      transactions.trans (deliver_idle_transactions inv quiet.idle (Ne.symm not_reset) ht)⟩

/-! ### The end of every operation (rule R326) -/

/-- A micro-step of a busy slot leaves fewer of them. -/
theorem stepsLeft_micro_lt {d : Slot} {s t : State} {ans : BusAnswer} (inv : Inv Config.params s)
    (busy : s.guard.get d = true) (h : deliver (.micro d ans) s = .next t) : stepsLeft d t < stepsLeft d s := by
  rw [stepsLeft_busy busy]
  rcases microStep_movesOrEnds busy (inv.seqOk busy) h with ⟨busy', moves⟩ | ⟨idle, -⟩
  · rw [stepsLeft_busy busy']
    exact moves.less
  · rw [stepsLeft_idle idle]
    exact (inv.seqOk busy).seqLeft_pos

/-- Any other input but a reset leaves as many. -/
theorem stepsLeft_other {d : Slot} {i : Input} {s t : State} (busy : s.guard.get d = true) (not_reset : i ≠ .reset)
    (not_own : ∀ a, i ≠ .micro d a) (h : deliver i s = .next t) : stepsLeft d t = stepsLeft d s := by
  obtain ⟨busy', seq⟩ := busySlotIsNotDisturbed d i s t busy not_reset not_own h
  rw [stepsLeft_busy busy', stepsLeft_busy busy, seq]

/-- The input is a micro-step of slot `d`. -/
def isMicroOf (d : Slot) : Input → Bool
  | .micro e _ => e == d
  | _ => false

theorem isMicroOf_iff {d : Slot} {i : Input} : isMicroOf d i = true ↔ ∃ a, i = .micro d a := by
  cases i <;> simp [isMicroOf]

/-- A schedule with as many micro-steps as are left has a first part that ends the operation. -/
theorem exists_prefix_idle {d : Slot} {is : List Input} {s : State} (inv : Inv Config.params s) (no_reset : .reset ∉ is)
    (enough : stepsLeft d s ≤ (is.filter (isMicroOf d)).length) :
    ∃ pre t, pre <+: is ∧ deliverAll pre s = .next t ∧ t.guard.get d = false := by
  induction is generalizing s with
  | nil =>
    refine ⟨[], s, List.prefix_rfl, rfl, ?_⟩
    by_contra busy
    have busy : s.guard.get d = true := by simpa using busy
    have := (inv.seqOk busy).seqLeft_pos
    rw [stepsLeft_busy busy, List.filter_nil, List.length_nil] at enough
    omega
  | cons i is ih =>
    cases busy : s.guard.get d with
    | false => exact ⟨[], s, List.nil_prefix, rfl, busy⟩
    | true =>
      rw [List.mem_cons, not_or] at no_reset
      obtain ⟨not_reset, no_reset⟩ := no_reset
      obtain ⟨t, ht⟩ := noInputStopsTheBlock i s inv
      have enough' : stepsLeft d t ≤ (is.filter (isMicroOf d)).length := by
        by_cases own : isMicroOf d i = true
        · rw [List.filter_cons_of_pos own, List.length_cons] at enough
          obtain ⟨a, rfl⟩ := isMicroOf_iff.mp own
          have := stepsLeft_micro_lt inv busy ht
          omega
        · rw [List.filter_cons_of_neg own] at enough
          rwa [stepsLeft_other busy (Ne.symm not_reset) (fun a ha => own (isMicroOf_iff.mpr ⟨a, ha⟩)) ht]
      obtain ⟨pre, u, sub, hu, idle⟩ := ih (deliver_inv inv ht) no_reset enough'
      exact ⟨i :: pre, u, (List.prefix_cons_inj i).mpr sub, (deliverAll_cons pre ht).trans hu, idle⟩

/-- At step 1 an operation has at most so many micro-steps left as rule R326 says. -/
theorem seqLeft_at_start {q : Seq} (start : q.step = .at 1) :
    match q.op with
    | .adcCycle _ _ _ => seqLeft q ≤ 5 * 8 + 2
    | .pxmeas gap => seqLeft q ≤ (Op.pxmeas gap).length - 3 + (2 * q.n.toNat + 1)
    | .pxaCycle _ pmAmb pmProx _ => seqLeft q ≤ 2 + (4 + (2 * pmAmb.toNat + 1)) + (4 + (2 * pmProx.toNat + 1))
    | op => seqLeft q ≤ op.length := by
  rw [seqLeft_at start]
  cases op : q.op
  case adcCycle =>
    rw [stepsLeftAt_adcCycle_select op, adcCycleLeft]
    dsimp only
    omega
  case pxmeas =>
    rw [stepsLeftAt_pxmeas (i := 0) op (by decide)]
    show 1 + (2 * q.n.toNat + 4) ≤ 8 - 3 + (2 * q.n.toNat + 1)
    omega
  case pxaCycle =>
    rw [stepsLeftAt_pxaCycle_select op, pxaCycleLeft]
    dsimp only
    split_ifs <;> omega
  all_goals
    rw [stepsLeftAt_straight (by rw [op]; rfl), op]
    exact Nat.le_refl _

/-- Settles O17: the schedule uses up the micro-steps left, whose number at step 1 is the program's. -/
theorem everyOperationEnds : Obligations.EveryOperationEnds := by
  refine ⟨fun d is s inv no_reset enough => exists_prefix_idle inv no_reset enough, fun d s busy start => ?_⟩
  rw [stepsLeft_busy busy]
  exact seqLeft_at_start start

end Sys2Proof.Machine
end

section
/-!
Exceptions (60_exceptions.md): how a bus transaction raises `BusError` (rules R362, R363), and everything the fail-exit writes
(rule R366), as one update of the state for every slot and both kinds.
-/

namespace Sys2Proof.Machine

/-! ### A failed transaction -/

/-- Settles O27: an answer without exactly the bytes asked for is a `Fail`, whatever the action's line says. -/
theorem failedTransactionRaisesBusError : Obligations.FailedTransactionRaisesBusError := by
  intro d k op after a s busy own_slot at_k action fails
  have no_bytes : answerBytes op.asked a = none := answerBytes_eq_none.mpr fails
  have raised : s.perform d k a (.bus op after) = (s.logged [failed d op]).raise d .busError :=
    State.perform_bus_fail after no_bytes
  exact (microStep_at a busy own_slot at_k action).trans (congrArg Host.Outcome.next raised)

/-! ### The fail-exit -/

/-- `s` with the exception counted where the slot counts them: slot 3 alone (45_pwm.md rule R231). -/
def State.countedFor (s : State) (d : Slot) : State := if d = .pwm then s.countPwmError else s

/-- The events that report an exception of the operation `q` of slot `d`. -/
def exceptionEvents (d : Slot) (q : Seq) (kind : ExcKind) : List TraceEntry :=
  if d ≠ .pwm ∧ q.op.isCycle = true then [.evt (.sensorException kind d.code)] else []

@[simp] theorem State.countedFor_seq (s : State) (d : Slot) : (s.countedFor d).seq = s.seq := by
  unfold State.countedFor
  split <;> rfl

theorem State.countedFor_eq (s : State) (d : Slot) :
    s.countedFor d = if d = .pwm then { s with pwmErrcnt := raisedByOne s.pwmErrcnt } else s := by
  rw [State.countedFor, State.countPwmError_eq]

theorem State.reportException_eq_logged (s : State) (d : Slot) (kind : ExcKind) :
    s.reportException d kind = (s.countedFor d).logged (exceptionEvents d (s.seq.get d) kind) := by
  rcases s.reportException_cases d kind with ⟨hd, eq⟩ | ⟨hd, cycle, eq⟩ | ⟨hd, primitive, eq⟩
  · rw [eq]
    simp [State.countedFor, exceptionEvents, hd]
  · simp [eq, State.countedFor, exceptionEvents, hd, cycle, State.publish_eq_logged]
  · simp [eq, State.countedFor, exceptionEvents, hd, primitive]

/-- Giving up the slot and clearing the exception write its guard and its sequencer. -/
theorem State.clearException_release (s : State) (d : Slot) :
    (s.release d).clearException d = (s.setGuard d false).setSeq d { s.seq.get d with op := .idle, exc := .none } := by
  simp [State.release, State.clearException, State.setSeq]

/-- Everything a fail-exit writes. -/
theorem State.failExit_eq (s : State) (d : Slot) (kind : ExcKind) (status : Status) (value : Word) :
    s.failExit d kind status value =
      ((((s.markAbsent d kind).countedFor d).logged
        (exceptionEvents d (s.seq.get d) kind ++ responseTo (s.seq.get d) status value)).setGuard d false).setSeq d
          { s.seq.get d with op := .idle, exc := .none } := by
  rw [State.failExit, State.reportException_eq_logged, State.clearException_release, State.answer_eq_logged,
    State.markAbsent_seq, ← State.logged_logged]
  simp only [State.logged_seq, State.countedFor_seq, State.markAbsent_seq]
  rfl

theorem State.markAbsent_busError (s : State) (d : Slot) : s.markAbsent d .busError = s := rfl

theorem State.markAbsent_timeout_pxa (s : State) : s.markAbsent .pxa .timeout = s.setRes .pxa 0xFFFFFFFF#32 false := rfl

/-- The response by what started the operation: none for a tick. -/
theorem responseTo_eq (q : Seq) (status : Status) (value : Word) :
    responseTo q status value =
      match q.origin with
      | .tick => []
      | .cmd => [answered q.opcode status value] := by
  unfold responseTo
  cases q.origin <;> rfl

/-- Settles O28, by the pending exception. -/
theorem failExitReportsAndReleases : Obligations.FailExitReportsAndReleases := by
  intro d a s busy own_slot at_exit pending
  rcases pending with bus_error | ⟨expired, rfl⟩
  · refine ⟨_, microStep_failExit_busError a busy own_slot at_exit bus_error, ?_⟩
    rw [State.failExit_eq, State.markAbsent_busError, State.countedFor_eq, responseTo_eq]
    simp only [bus_error, reduceCtorEq, if_false]
    rfl
  · refine ⟨_, microStep_failExit_timeout a busy own_slot at_exit expired, ?_⟩
    rw [State.failExit_eq, State.markAbsent_timeout_pxa, State.countedFor_eq, responseTo_eq]
    simp only [expired, if_true]
    rfl

end Sys2Proof.Machine
end

section
/-!
Reset and hazards (70_reset_and_hazards.md): a `Reset` in any state (rules R400, R401), and what an absent `ADMEAS` can reach of a
running operation of slot 0 (rule R418).
-/

namespace Sys2Proof.Machine

/-! ### Reset (rules R400, R401) -/

theorem resetStep_resetValues (s : State) : ResetValues Config.params (resetStep Config.params s) :=
  { resetHoldsTheTable with }

/-- With every timer off a tick changes nothing. -/
theorem ResetValues.tickStep_eq {p : Params} {s : State} (h : ResetValues p s) (d : Sensor) : tickStep p d s = s :=
  if_pos (h.timerEn d)

/-- With every guard clear no micro-step is enabled. -/
theorem ResetValues.microStep_eq {p : Params} {s : State} (h : ResetValues p s) (d : Slot) (ans : BusAnswer) :
    microStep p d ans s = .next s := microStep_idle ans (h.guard d)

/-- Settles O9: after the reset every timer is off and every guard is clear. -/
theorem resetFromAnyState : Obligations.ResetFromAnyState := fun s =>
  have values := resetStep_resetValues s
  ⟨_, rfl, values, fun d => congrArg Host.Outcome.next (values.tickStep_eq d), values.microStep_eq⟩

/-! ### Updates that do not depend on a result register (rule R418) -/

@[simp] theorem State.setRes_setRes (s : State) (e : Sensor) (v w : Word) (b c : Bool) :
    (s.setRes e v b).setRes e w c = s.setRes e w c := by simp [State.setRes]

theorem slot_injective : Function.Injective Sensor.slot := fun _ _ h =>
  Option.some.inj ((Slot.sensor_eq_some.mpr rfl).symm.trans (Slot.sensor_eq_some.mpr h))

/-- Whatever the result of `e` holds, `f` does the same to everything else, and either writes that result itself or leaves it. -/
inductive BlindToResult (e : Sensor) (f : State → State) : Prop
  | overwrites (h : ∀ s v b, f (s.setRes e v b) = f s)
  | leaves (h : ∀ s v b, f (s.setRes e v b) = (f s).setRes e v b)

namespace BlindToResult

variable {e : Sensor} {f g : State → State}

theorem comp (hg : BlindToResult e g) (hf : BlindToResult e f) : BlindToResult e fun s => g (f s) := by
  rcases hf with hf | hf
  · exact .overwrites fun s v b => by rw [hf]
  · rcases hg with hg | hg
    · exact .overwrites fun s v b => by rw [hf, hg]
    · exact .leaves fun s v b => by rw [hf, hg]

theorem setRes (w : Word) (c : Bool) : BlindToResult e fun s => s.setRes e w c :=
  .overwrites fun s v b => s.setRes_setRes e v w b c

theorem latchRead (d : Slot) (op : BusOp) (rd : List Byte) : BlindToResult e fun s => s.latchRead d op rd :=
  .leaves fun s v b => by cases op <;> rfl

theorem goto (d : Slot) (k : Nat) : BlindToResult e fun s => s.goto d k := .leaves fun _ _ _ => rfl

theorem emit (entry : TraceEntry) : BlindToResult e fun s => s.emit entry := .leaves fun _ _ _ => rfl

theorem raise (d : Slot) (exc : Pending) : BlindToResult e fun s => s.raise d exc := .leaves fun _ _ _ => rfl

theorem countedFor (d : Slot) : BlindToResult e fun s => s.countedFor d := by
  by_cases hd : d = .pwm
  · simp only [State.countedFor, if_pos hd]
    exact .leaves fun _ _ _ => rfl
  · simp only [State.countedFor, if_neg hd]
    exact .leaves fun _ _ _ => rfl

/-- A `Timeout` writes the sentinel, another exception leaves the result. -/
theorem markAbsent (kind : ExcKind) : BlindToResult e fun s => s.markAbsent e.slot kind := by
  cases kind with
  | timeout => cases e <;> exact setRes _ _
  | busError | checksumError | rangeError => exact .leaves fun _ _ _ => rfl

/-- What follows the writes `f` may look at the sequencer that the step began with. -/
theorem thenWithSeq (hf : BlindToResult e f) (d : Slot) (next : Seq → State → State)
    (hnext : ∀ q s v b, next q (s.setRes e v b) = (next q s).setRes e v b) :
    BlindToResult e fun s => next (s.seq.get d) (f s) := by
  rcases hf with hf | hf
  · exact .overwrites fun s v b => by rw [hf, State.setRes_seq]
  · exact .leaves fun s v b => by rw [hf, State.setRes_seq, hnext]

theorem failExit (kind : ExcKind) (status : Status) (value : Word) :
    BlindToResult e fun s => s.failExit e.slot kind status value := by
  simp only [State.failExit_eq]
  exact ((countedFor e.slot).comp (markAbsent kind)).thenWithSeq e.slot
    (fun q s => ((s.logged (exceptionEvents e.slot q kind ++ responseTo q status value)).setGuard e.slot false).setSeq e.slot
      { q with op := .idle, exc := .none })
    fun _ _ _ _ => rfl

end BlindToResult

/-- The assignments of a program of the slot of `e` do not depend on its result. -/
theorem Writes.blindToResult {e : Sensor} {w : Place} {f : State → State} (h : Writes e.slot w f) : BlindToResult e f := by
  induction h with
  | none => exact .leaves fun _ _ _ => rfl
  | seq g _ ih => exact .comp (g := fun s => s.setSeq e.slot (g (s.seq.get e.slot))) (.leaves fun _ _ _ => rfl) ih
  | adcCurCh _ _ ch _ ih => exact .comp (g := fun s => { s with adcCurCh := ch }) (.leaves fun _ _ _ => rfl) ih
  | lastStatus _ _ byte _ ih => exact .comp (g := fun s => { s with lastStatus := byte }) (.leaves fun _ _ _ => rfl) ih
  | event _ ev _ ih => exact .comp (.emit (.evt ev)) ih
  | result _ e' own _ _ _ ih =>
    obtain rfl := slot_injective own
    exact .comp (.setRes _ _) ih

/-! ### The micro-steps of slot 0 (rule R418) -/

theorem State.answer_setRes (s : State) (e : Sensor) (v : Word) (b : Bool) (q : Seq) (status : Status) (value : Word) :
    (s.setRes e v b).answer q status value = (s.answer q status value).setRes e v b := by
  simp only [State.answer_eq_logged, State.logged_setRes]

/-- The action is no retire that answers the result of `e` as it stands: it answers a fixed value, or writes that result before it
answers. -/
def Action.FixedAnswer (e : Sensor) : Action → Prop
  | .retire final value => (∃ w, value = fun _ => w) ∨ ∀ s v b, final (s.setRes e v b) = final s
  | _ => True

theorem retire_blindToResult {e : Sensor} {final : State → State} {value : State → Word}
    (writes : Writes e.slot .internal final)
    (fixed : (Action.retire final value).FixedAnswer e) : BlindToResult e fun s => s.retire e.slot final value := by
  rcases fixed with ⟨w, rfl⟩ | written
  · exact writes.blindToResult.thenWithSeq e.slot (fun q s => (s.release e.slot).answer q .ok w)
      fun q s v b => (s.release e.slot).answer_setRes e v b q .ok w
  · exact .overwrites fun s v b => by simp only [State.retire, written, State.setRes_seq]

theorem perform_blindToResult {e : Sensor} {act : Action} (confined : act.Confined e.slot) (fixed : act.FixedAnswer e) (k : Nat)
    (ans : BusAnswer) : BlindToResult e fun s => s.perform e.slot k ans act := by
  cases act with
  | bus op after =>
    cases ha : answerBytes op.asked ans with
    | some rd =>
      simp only [State.perform_bus_ok after ha]
      exact (confined rd).blindToResult.comp ((BlindToResult.goto ..).comp ((BlindToResult.latchRead ..).comp (.emit _)))
    | none =>
      simp only [State.perform_bus_fail after ha]
      exact (BlindToResult.raise ..).comp (.emit _)
  | delay ms next => exact (BlindToResult.goto ..).comp (.emit _)
  | internal act => exact (Writes.blindToResult confined).comp (.goto ..)
  | retire final value =>
    obtain ⟨writes, -⟩ := confined
    exact retire_blindToResult writes fixed

/-- The only action of slot 0 that answers `RES[0]` as it stands is the retire of an `ADMEAS` (41_codec_adc.md rule R145 step 5). -/
theorem programOf_adc_fixedAnswer {p : Params} {q : Seq} {k : Nat} {act : Action} (own_slot : q.op.slot = some .adc)
    (h : programOf p q k = some act) :
    act.FixedAnswer .adc ∨
      (∃ cfg delayMs address, q.op = .admeas cfg delayMs address) ∧ k = 5 ∧ act = .retire id fun s => s.res.adc := by
  unfold programOf at h
  cases hq : q.op <;> rw [hq] at own_slot h <;> cases own_slot
  case adtrig =>
    simp only [adtrigProgram] at h
    split at h <;> cases h
    · exact .inl trivial
    · exact .inl (.inl ⟨_, rfl⟩)
  case adread =>
    simp only [adreadProgram] at h
    split at h <;> cases h
    · exact .inl trivial
    · exact .inl (.inr fun s v b => s.setRes_setRes .adc v _ b true)
  case admeas =>
    simp only [admeasProgram] at h
    split at h <;> cases h
    case h_1 | h_2 | h_3 | h_4 => exact .inl trivial
    case h_5 => exact .inr ⟨⟨_, _, _, rfl⟩, rfl, rfl⟩
  case adcCycle =>
    simp only [adcCycleProgram] at h
    split at h <;> cases h
    case h_1 | h_2 | h_3 | h_4 | h_5 => exact .inl trivial
    case h_6 => exact .inl (.inl ⟨_, rfl⟩)

/-- The retire of an `ADMEAS` leaves `RES[0]`, and answers it to the command that started it; a tick is not answered. -/
theorem retire_answers_result (s : State) (v : Word) (b : Bool) :
    (s.setRes .adc v b).retire .adc id (fun s => s.res.adc) = (s.retire .adc id fun s => s.res.adc).setRes .adc v b ∨
    ∃ ended : State, s.retire .adc id (fun s => s.res.adc) = ended.logged [answered s.seq.adc.opcode .ok s.res.adc] ∧
      (s.setRes .adc v b).retire .adc id (fun s => s.res.adc) =
        (ended.setRes .adc v b).logged [answered s.seq.adc.opcode .ok v] := by
  simp only [State.retire, State.answer_eq_logged, responseTo, State.setRes_seq, PerSlot.get_adc]
  cases s.seq.adc.origin with
  | tick => exact .inl rfl
  | cmd => exact .inr ⟨s.release .adc, rfl, rfl⟩

theorem BlindToResult.next_cases {e : Sensor} {f : State → State} (hf : BlindToResult e f) (s : State) (v : Word) (b : Bool) :
    (.next (f (s.setRes e v b)) : Host.Outcome State Fault Refusal) = .next (f s) ∨
      (.next (f (s.setRes e v b)) : Host.Outcome State Fault Refusal) = .next ((f s).setRes e v b) := by
  rcases hf with hf | hf
  · exact .inl (congrArg _ (hf s v b))
  · exact .inr (congrArg _ (hf s v b))

/-- What a micro-step of slot 0 has to do with the `RES[0]` it finds. -/
theorem microStep_adc_result {p : Params} {s t : State} {ans : BusAnswer} (h : microStep p .adc ans s = .next t) (v : Word)
    (b : Bool) :
    microStep p .adc ans (s.setRes .adc v b) = .next t ∨
    microStep p .adc ans (s.setRes .adc v b) = .next (t.setRes .adc v b) ∨
    (∃ cfg delayMs address, s.seq.adc.op = .admeas cfg delayMs address) ∧ s.seq.adc.step = .at 5 ∧
      ∃ ended : State, t = ended.logged [answered s.seq.adc.opcode .ok s.res.adc] ∧
        microStep p .adc ans (s.setRes .adc v b) =
          .next ((ended.setRes .adc v b).logged [answered s.seq.adc.opcode .ok v]) := by
  rcases microStep_cases h with ⟨idle, rfl⟩ |
    ⟨busy, own_slot, ⟨k, act, at_k, action, rfl⟩ | ⟨at_exit, failed, rfl⟩ | ⟨at_exit, expired, rfl⟩⟩
  · exact .inr (.inl (microStep_idle ans idle))
  · rw [microStep_at (s := s.setRes .adc v b) ans busy own_slot at_k action]
    rcases programOf_adc_fixedAnswer own_slot action with fixed | ⟨admeas, rfl, rfl⟩
    · have confined := programOf_confined p own_slot action
      exact ((perform_blindToResult (e := .adc) confined fixed k ans).next_cases s v b).imp_right .inl
    · rcases retire_answers_result s v b with leaves | ⟨ended, answers, answers'⟩
      · exact .inr (.inl (congrArg _ leaves))
      · exact .inr (.inr ⟨admeas, at_k, ended, answers, congrArg _ answers'⟩)
  · rw [microStep_failExit_busError (s := s.setRes .adc v b) ans busy own_slot at_exit failed]
    exact ((BlindToResult.failExit (e := .adc) ..).next_cases s v b).imp_right .inl
  · rw [microStep_failExit_timeout (s := s.setRes .adc v b) ans busy own_slot at_exit expired]
    exact ((BlindToResult.failExit (e := .adc) ..).next_cases s v b).imp_right .inl

/-- Settles O30: the absent `ADMEAS` writes `RES[0]` alone, and the assignments of slot 0 are blind to what it holds. -/
theorem absentAdmeasReachesNoRunningOperation : Obligations.AbsentAdmeasReachesNoRunningOperation :=
  ⟨fun _ s absent => ⟨_, exec_admeas_absent absent s, rfl, rfl, rfl, rfl⟩,
    fun _ value valid _ _ h => microStep_adc_result h value valid⟩

end Sys2Proof.Machine
end
